-- ==== Sys2Proof/Word.lean ====
section
/-! DEFINITION. The word types of the block: bytes, byte sequences (00_scope.md R13) and the 16-bit and 32-bit values assembled from them. -/

namespace Sys2Proof

/-- One byte (20_memory.md R50: "A byte is 8 bits"). -/
abbrev Byte := BitVec 8

/-- A finite sequence of bytes, first byte at offset 0 (00_scope.md R13). -/
abbrev Bytes := List Byte

/-- A 16-bit value: a checksum, a length field, a register address, a 16-bit sensor field. -/
abbrev Half := BitVec 16

/-- A 32-bit value: the barometric pressure field. -/
abbrev Word32 := BitVec 32

end Sys2Proof
end

