-- ==== Sys2Proof/Config.lean ====
section
/-! DEFINITION. What the block fixes (00_scope.md R8, R9, R10) and the values the spec leaves free. -/

namespace Sys2Proof.Config

/-- CRC_INIT (00_scope.md R8). -/
def crcInit : Half := 0xFFFF

/-- CRC_FEEDBACK (00_scope.md R8). -/
def crcFeedback : Half := 0xA001

/-- HEADER_B0, frame offset 0 (00_scope.md R9). -/
def headerB0 : Byte := 0x52

/-- HEADER_B1, frame offset 1 (00_scope.md R9). -/
def headerB1 : Byte := 0x42

/-- HEADER, the two header bytes read little-endian (00_scope.md R9; 90_conflicts.md C5). -/
def header : Half := 0x4252

/-- OP_READ, the wire opcode of a read request (00_scope.md R8). -/
def opRead : Byte := 0x01

/-- OP_WRITE, the wire opcode of a write request (00_scope.md R8). -/
def opWrite : Byte := 0x02

/-- REG_LATEST_LONG (00_scope.md R8). -/
def regLatestLong : Half := 0x5021

/-- REG_MOUNT_ORIENT (00_scope.md R8). -/
def regMountOrient : Half := 0x5402

/-- REG_DEVICE_INFO (00_scope.md R8). -/
def regDeviceInfo : Half := 0x180A

/-- REG_LED (00_scope.md R8). -/
def regLed : Half := 0x5111

/-- ERR_MASK, the error bit of the status byte (00_scope.md R8). -/
def errMask : Byte := 0x80

/-- OVERHEAD, the bytes of a frame beyond its declared length (00_scope.md R8). -/
def overhead : Nat := 4

/-- LEN_BIAS, declared length minus payload length (00_scope.md R8). -/
def lenBias : Nat := 2

/-- PAYLOAD_MAX, the greatest payload BLD.REQ accepts (00_scope.md R10). -/
def payloadMax : Nat := 65533

/-- BUF_CAP, the capacity of BUF in bytes (00_scope.md R10). -/
def bufCap : Nat := 65539

/-- asciiHigh: the character an ASCII-decoded field holds for a byte 0x80 to 0xFF, which the spec leaves open
(30_encoding.md R99, D13). DESIGN CHOICE, safe: a free value, log entry 18. -/
opaque asciiHigh : Byte → Char

/-- What TTL holds after an INIT with ttl_en = 0, which the spec leaves unspecified (10_state.md R37, V12). The
argument is the draw counter of the state. DESIGN CHOICE, safe: a free value, log entry 12. -/
opaque freeTtl : Nat → Nat

end Sys2Proof.Config
end

