-- ==== Sys2Proof/Syntax.lean ====
section
/-! DEFINITION. The instructions: one constructor of Instr per row of spec/opcode_table.json, their operand forms, and the
presented word (format, wire bytes, operand lines) that an instruction is decoded from. -/

namespace Sys2Proof

/-- The nine display rules, in the order of 30_encoding.md R93. -/
inductive DisplayRule
  | off | on | temperature | humidity | illuminance | barometricPressure | soundNoise | etvoc | vibration
  deriving DecidableEq, Repr

/-- The texts of the status table (30_encoding.md R90). -/
inductive StatusText
  | readOk | writeOk | readError | writeError | unknown
  deriving DecidableEq, Repr

/-- The texts of the error table (30_encoding.md R91). The table's default is the absence of a text. -/
inductive ErrorText
  | crcError | commandError | addressError | lengthError | dataError | busy
  deriving DecidableEq, Repr

/-- The texts of the vibration-status table (30_encoding.md R92). -/
inductive VibText
  | noVibration | vibrationDetected | earthquakeDetected | unknown
  deriving DecidableEq, Repr

/-- The display-rule operand of BLD.WRLED (30_encoding.md R81, R107): absent, a name, or the 4-bit index that a hardware
implementation may take in place of the name. DESIGN CHOICE, safe: all three forms are admitted, log entry 16. -/
inductive RuleOperand
  | absent
  | name (s : String)
  | index (i : BitVec 4)
  deriving DecidableEq, Repr

/-- The colour operand as the host gives it (30_encoding.md R106): absent, a value that is neither string nor number, a
string, an integer, or a number that is no integer. -/
inductive ColorOperand
  | absent
  | neither
  | str (s : String)
  | num (n : Int)
  | fractional
  deriving DecidableEq, Repr

/-- One element of an array the host hands to PARSE (42_parser.md R172): an integer, or anything that is not one. -/
inductive ArrayElem
  | int (v : Int)
  | notInteger
  deriving DecidableEq, Repr

/-- The chunk operand of PARSE before normalisation (42_parser.md R172): a byte sequence, an array, the interchange
wrapper of an array, or anything else. The wrapper's own shape is not given (91_not_in_source.md N7): log entry 17. -/
inductive ChunkOperand
  | bytes (b : Bytes)
  | array (elems : List ArrayElem)
  | wrapper (elems : List ArrayElem)
  | other
  deriving DecidableEq, Repr

/-- The eight formats of spec/opcode_table.json. -/
inductive Format
  | hostop | req | rsp | tblStatus | tblError | tblVib | tblRule | frame
  deriving DecidableEq, Repr

/-- The rows of format RSP: the arms of the decode dispatch (30_encoding.md R94). -/
inductive DecArm
  | err | d5021 | d5402 | d180A | unsup | bare
  deriving DecidableEq, Repr

/-- One constructor per row of spec/opcode_table.json, in its order. -/
inductive Instr
  -- format HOSTOP (30_encoding.md R80, R81)
  | init (link : Nat) (ttlEn : Bool) (ttl : Nat)
  | crc16 (bytes : Bytes)
  | bldReq (payload : Bytes)
  | bldRdlong
  | bldRdori
  | bldRdinfo
  | bldWrled (rule : RuleOperand) (color : ColorOperand)
  | parse (link : Nat) (now : Nat) (chunk : ChunkOperand)
  | hostopReserved (op : BitVec 4)
  -- format REQ (30_encoding.md R84, R85, R86)
  | reqRd5021
  | reqRd5402
  | reqRd180A
  | reqWr5111 (code : Half) (red green blue : Byte)
  -- format RSP (30_encoding.md R87, R94): the whole payload
  | decErr (payload : Bytes)
  | dec5021 (payload : Bytes)
  | dec5402 (payload : Bytes)
  | dec180A (payload : Bytes)
  | decUnsup (payload : Bytes)
  | decBare (payload : Bytes)
  -- format TBL.STATUS (30_encoding.md R90)
  | status01
  | status02
  | status81
  | status82
  | statusDefault (key : Byte)
  -- format TBL.ERROR (30_encoding.md R91)
  | error01
  | error02
  | error03
  | error04
  | error05
  | error06
  | errorDefault (key : Byte)
  -- format TBL.VIB (30_encoding.md R92)
  | vib00
  | vib01
  | vib02
  | vibDefault (key : Byte)
  -- format TBL.RULE (30_encoding.md R93)
  | ruleOff
  | ruleOn
  | ruleTemperature
  | ruleHumidity
  | ruleIlluminance
  | ruleBarometricPressure
  | ruleSoundNoise
  | ruleEtvoc
  | ruleVibration
  | ruleDefault (rule : RuleOperand)
  -- format FRAME (20_memory.md R63, 30_encoding.md R82): the whole frame
  | frame (bytes : Bytes)
  deriving DecidableEq, Repr

/-- The operand lines presented beside an OP code (30_encoding.md R81). An operation reads its own lines only; the
defaults stand for lines that carry zeros. `link` names the parser an INIT or a PARSE is issued on (log entry 2). -/
structure HostLines where
  link    : Nat := 0
  ttlEn   : Bool := false
  ttl     : Nat := 0
  bytes   : Bytes := []
  payload : Bytes := []
  rule    : RuleOperand := .index 0
  color   : ColorOperand := .num 0
  now     : Nat := 0
  chunk   : ChunkOperand := .bytes []
  deriving DecidableEq, Repr

/-- A word of one of the formats, as wire bytes (a HOSTOP word is one byte that holds OP in its low four bits), with the
operand lines beside it. DESIGN CHOICE, safe: log entries 1 and 4. -/
structure Presented where
  fmt   : Format
  word  : Bytes
  lines : HostLines := {}
  deriving DecidableEq, Repr

/-- An operation the host issues: an OP code and the operand lines (30_encoding.md R80, R81). The host issues nothing else:
no word of another format, so it cannot call the decoder (43_decode.md R200). -/
structure HostOp where
  op    : BitVec 4
  lines : HostLines := {}
  deriving DecidableEq, Repr

/-- The HOSTOP word of a host operation (30_encoding.md R80). -/
def HostOp.word (o : HostOp) : Presented := { fmt := .hostop, word := [o.op.setWidth 8], lines := o.lines }

/-- Why no row of the table stands for a presented word. -/
inductive DecodeError
  /-- A HOSTOP word is one byte with its high four bits 0 (30_encoding.md R80). -/
  | hostWord
  /-- A request payload that no row of the command table is (30_encoding.md R86). -/
  | requestWord
  /-- A response payload of `len` bytes, fewer than the 3 the dispatch reads (43_decode.md R202). -/
  | responseShort (len : Nat)
  /-- A table key that is not one byte (30_encoding.md R90 to R92). -/
  | tableKey
  /-- A display-rule code that no row holds (30_encoding.md R93). -/
  | ruleCode
  /-- Fewer than the 4 bytes of header and length (30_encoding.md R82). -/
  | frameShort
  /-- A frame's first two bytes are not 52 42 (30_encoding.md R82). -/
  | frameHeader
  /-- The number of bytes is not LENGTH + 4 (20_memory.md R63). -/
  | frameLength
  deriving DecidableEq, Repr

end Sys2Proof
end

