-- ==== Sys2Proof/Machine/Operands.lean ====
section
/-! DEFINITION. Byte-order and field assembly, the constant tables, the host's operand forms, and the numeric and text
readings of decoded fields (00_scope.md R14, 20_memory.md R71, 30_encoding.md R90 to R99, R106, R107, 42_parser.md R172). -/

namespace Sys2Proof.Machine

/-! ## Field assembly -/

/-- The byte at offset `o` (00_scope.md R13). Every rule that reads is guarded by a length test (20_memory.md R60), so what
stands here for an offset past the end is never read by one. DEDUCED, safe: log entry 21. -/
def byteAt (s : Bytes) (o : Nat) : Byte := s.getD o 0

/-- le16 (00_scope.md R14, 30_encoding.md R96). -/
def le16 (s : Bytes) (o : Nat) : Half := byteAt s (o + 1) ++ byteAt s o

/-- le32 (00_scope.md R14, 30_encoding.md R96). -/
def le32 (s : Bytes) (o : Nat) : Word32 :=
  byteAt s (o + 3) ++ byteAt s (o + 2) ++ byteAt s (o + 1) ++ byteAt s o

/-- u16le: the two-byte little-endian writing of a 16-bit value (00_scope.md R14). -/
def u16le (v : Half) : Bytes := [v.extractLsb' 0 8, v.extractLsb' 8 8]

/-- The half-open slice of offsets `a` up to but not including `b` (00_scope.md R13). -/
def slice (s : Bytes) (a b : Nat) : Bytes := (s.take b).drop a

/-- The bytes of a frame that its checksum covers: all but the trailing two (42_parser.md R180). -/
def frameBody (f : Bytes) : Bytes := slice f 0 (f.length - 2)

/-- The stored checksum: the trailing two bytes, little-endian (42_parser.md R180). -/
def frameStored (f : Bytes) : Half := le16 f (f.length - 2)

/-- The payload of a frame (42_parser.md R180, 20_memory.md R51). -/
def framePayload (f : Bytes) : Bytes := slice f 4 (f.length - 2)

/-- The two header bytes stand at offsets 0 and 1 (00_scope.md R9, 42_parser.md R175). -/
def headerGood (s : Bytes) : Bool := byteAt s 0 == Config.headerB0 && byteAt s 1 == Config.headerB1

/-! ## The constant tables (10_state.md R33) -/

/-- STATUS_TEXT (30_encoding.md R90). -/
def statusText (k : Byte) : StatusText :=
  if k = 0x01 then .readOk
  else if k = 0x02 then .writeOk
  else if k = 0x81 then .readError
  else if k = 0x82 then .writeError
  else .unknown

/-- ERROR_TEXT; `none` is the table's "leave undefined" (30_encoding.md R91). -/
def errorText (k : Byte) : Option ErrorText :=
  if k = 0x01 then some .crcError
  else if k = 0x02 then some .commandError
  else if k = 0x03 then some .addressError
  else if k = 0x04 then some .lengthError
  else if k = 0x05 then some .dataError
  else if k = 0x06 then some .busy
  else none

/-- VIB_TEXT (30_encoding.md R92). -/
def vibText (k : Byte) : VibText :=
  if k = 0 then .noVibration
  else if k = 1 then .vibrationDetected
  else if k = 2 then .earthquakeDetected
  else .unknown

/-- The code of a display rule (30_encoding.md R93; the codes 3 to 8 are the spec's decision D14). -/
def displayRuleCode : DisplayRule → Half
  | .off => 0x0000
  | .on => 0x0001
  | .temperature => 0x0002
  | .humidity => 0x0003
  | .illuminance => 0x0004
  | .barometricPressure => 0x0005
  | .soundNoise => 0x0006
  | .etvoc => 0x0007
  | .vibration => 0x0008

/-- The exact, case-sensitive comparison with the nine names (30_encoding.md R93, R107). -/
def displayRuleOfName (s : String) : Option DisplayRule :=
  if s = "OFF" then some .off
  else if s = "ON" then some .on
  else if s = "Temperature" then some .temperature
  else if s = "Humidity" then some .humidity
  else if s = "Illuminance" then some .illuminance
  else if s = "Barometric Pressure" then some .barometricPressure
  else if s = "Sound Noise" then some .soundNoise
  else if s = "eTVOC" then some .etvoc
  else if s = "Vibration" then some .vibration
  else none

/-- The rule at an index 0 to 8; 9 to 15 resolve as unrecognised (30_encoding.md R107). -/
def displayRuleOfIndex (i : BitVec 4) : Option DisplayRule :=
  if i = 0 then some .off
  else if i = 1 then some .on
  else if i = 2 then some .temperature
  else if i = 3 then some .humidity
  else if i = 4 then some .illuminance
  else if i = 5 then some .barometricPressure
  else if i = 6 then some .soundNoise
  else if i = 7 then some .etvoc
  else if i = 8 then some .vibration
  else none

/-- The display rule an operand names, if it names one (30_encoding.md R107). -/
def resolveRule : RuleOperand → Option DisplayRule
  | .absent => none
  | .name s => displayRuleOfName s
  | .index i => displayRuleOfIndex i

/-- RULE_CODE: 0x0000 when the operand names no rule (30_encoding.md R93, R107). -/
def ruleCode (r : RuleOperand) : Half :=
  match resolveRule r with
  | some d => displayRuleCode d
  | none => 0x0000

/-- The comparison with "ON" that decides whether colour bytes are sent (30_encoding.md R107, 41_builder.md R145). -/
def ruleIsOn (r : RuleOperand) : Bool := resolveRule r == some .on

/-- The text of a status (30_encoding.md R90). -/
def statusString : StatusText → String
  | .readOk => "Read OK"
  | .writeOk => "Write OK"
  | .readError => "Read Error"
  | .writeError => "Write Error"
  | .unknown => "Unknown"

/-- The text of an error (30_encoding.md R91). -/
def errorString : ErrorText → String
  | .crcError => "CRC Error"
  | .commandError => "Command Error"
  | .addressError => "Address Error"
  | .lengthError => "Length Error"
  | .dataError => "Data Error"
  | .busy => "Busy"

/-- The text of a vibration status (30_encoding.md R92). -/
def vibString : VibText → String
  | .noVibration => "None"
  | .vibrationDetected => "Vibration Detected"
  | .earthquakeDetected => "Earthquake Detected"
  | .unknown => "Unknown"

/-! ## The host's operand forms -/

/-- The value of one hexadecimal digit, either case (30_encoding.md R106). -/
def hexDigit (c : Char) : Option Nat :=
  let n := c.toNat
  if 48 ≤ n ∧ n ≤ 57 then some (n - 48)
  else if 65 ≤ n ∧ n ≤ 70 then some (n - 55)
  else if 97 ≤ n ∧ n ≤ 102 then some (n - 87)
  else none

/-- Reads on from the value `acc` through hexadecimal digits only. -/
def hexFrom (acc : Nat) : List Char → Option Nat
  | [] => some acc
  | c :: cs =>
    match hexDigit c with
    | some d => hexFrom (16 * acc + d) cs
    | none => none

/-- The number one or more hexadecimal digits spell; anything else is refused (30_encoding.md R106). -/
def hexNumber : List Char → Option Nat
  | [] => none
  | c :: cs => hexFrom 0 (c :: cs)

/-- A colour string: one leading '#' is dropped (30_encoding.md R106). -/
def colorString : List Char → Option Nat
  | '#' :: cs => hexNumber cs
  | cs => hexNumber cs

/-- Colour resolution (30_encoding.md R106); `none` is a value the spec has the model refuse (V4, log entry 15). -/
def resolveColor : ColorOperand → Option Nat
  | .absent => some 0
  | .neither => some 0
  | .str s => colorString s.toList
  | .num n => if 0 ≤ n then some n.toNat else none
  | .fractional => none

/-- The three colour bytes, most significant first; bits 24 and above are dropped (30_encoding.md R106, 20_memory.md R54). -/
def colorBytes (c : Nat) : Bytes :=
  [BitVec.ofNat 8 (c / 65536), BitVec.ofNat 8 (c / 256), BitVec.ofNat 8 c]

/-- The bytes of an array whose every element is an integer 0 to 255 (42_parser.md R172). -/
def arrayBytes : List ArrayElem → Option Bytes
  | [] => some []
  | .int v :: es =>
    if 0 ≤ v ∧ v ≤ 255 then (arrayBytes es).map (BitVec.ofInt 8 v :: ·) else none
  | .notInteger :: _ => none

/-- NORM (42_parser.md R172); `none` is the FormatError(INPUT_TYPE) case. -/
def norm : ChunkOperand → Option Bytes
  | .bytes b => some b
  | .array es => arrayBytes es
  | .wrapper es => arrayBytes es
  | .other => none

/-! ## The decode dispatch -/

/-- The arm of a payload of at least 3 bytes: the rows of 30_encoding.md R94 from the top, the first that matches. -/
def dispatch (p : Bytes) : DecArm :=
  if byteAt p 0 &&& Config.errMask ≠ 0 then .err
  else if le16 p 1 = Config.regLatestLong then .d5021
  else if le16 p 1 = Config.regMountOrient then .d5402
  else if le16 p 1 = Config.regDeviceInfo then .d180A
  else if byteAt p 0 = 0x01 then .unsup
  else .bare

/-- `need`: the bytes a decode arm reads (43_decode.md R203). -/
def need : DecArm → Nat
  | .err => 4
  | .d5021 => 31
  | .d5402 => 4
  | .d180A => 38
  | .unsup => 3
  | .bare => 3

/-! ## Readings of decoded fields -/

/-- A field with scale exponent `k` decodes to the exact rational raw / 10^k (30_encoding.md R98, 43_decode.md R210). -/
def scaled (raw : Int) (k : Nat) : Rat := (raw : Rat) / ((10 ^ k : Nat) : Rat)

/-- One character of an ASCII range: a byte below 0x80 is the character of that code, a higher byte is the open
parameter asciiHigh (30_encoding.md R99). -/
def asciiChar (b : Byte) : Char := if b.toNat < 128 then Char.ofNat b.toNat else Config.asciiHigh b

/-- The characters of an ASCII range, nothing trimmed (30_encoding.md R99). -/
def asciiText (s : Bytes) : List Char := s.map asciiChar

end Sys2Proof.Machine
end

