-- ==== Sys2Proof/WellFormed.lean ====
section
/-! DEFINITION. Which terms of Instr are instructions of the table: the operands of a row lie in the row's own range. -/

namespace Sys2Proof

/-- The payload selects the arm `a` of the dispatch: it has the 3 bytes the dispatch reads and the row of 30_encoding.md
R94 that matches first is `a`'s (43_decode.md R202). -/
def selects (p : Bytes) (a : DecArm) : Bool := 3 ≤ p.length && Machine.dispatch p == a

/-- A whole frame as it stands at discharge: header, and LENGTH + 4 bytes in all (20_memory.md R63, 30_encoding.md R83). -/
def wholeFrame (f : Bytes) : Bool :=
  4 ≤ f.length && Machine.headerGood f && f.length == (Machine.le16 f 2).toNat + Config.overhead

/-- The well-formed instructions: every operand is one its row's encoding admits. -/
def Instr.wellFormed : Instr → Bool
  | .init _ _ _ => true
  | .crc16 _ => true
  | .bldReq _ => true
  | .bldRdlong => true
  | .bldRdori => true
  | .bldRdinfo => true
  | .bldWrled _ _ => true
  | .parse _ _ _ => true
  | .hostopReserved op => 8 ≤ op.toNat
  | .reqRd5021 => true
  | .reqRd5402 => true
  | .reqRd180A => true
  | .reqWr5111 _ _ _ _ => true
  | .decErr p => selects p .err
  | .dec5021 p => selects p .d5021
  | .dec5402 p => selects p .d5402
  | .dec180A p => selects p .d180A
  | .decUnsup p => selects p .unsup
  | .decBare p => selects p .bare
  | .status01 => true
  | .status02 => true
  | .status81 => true
  | .status82 => true
  | .statusDefault k => Machine.statusText k == .unknown
  | .error01 => true
  | .error02 => true
  | .error03 => true
  | .error04 => true
  | .error05 => true
  | .error06 => true
  | .errorDefault k => Machine.errorText k == none
  | .vib00 => true
  | .vib01 => true
  | .vib02 => true
  | .vibDefault k => Machine.vibText k == .unknown
  | .ruleOff => true
  | .ruleOn => true
  | .ruleTemperature => true
  | .ruleHumidity => true
  | .ruleIlluminance => true
  | .ruleBarometricPressure => true
  | .ruleSoundNoise => true
  | .ruleEtvoc => true
  | .ruleVibration => true
  | .ruleDefault r => Machine.resolveRule r == none
  | .frame f => wholeFrame f

end Sys2Proof
end

