-- ==== Sys2Proof/Decode.lean ====
section
/-! DEFINITION. The decoder of presented words, total on any bytes and rejecting by name, the encoder, and the reading of
the opcode table's own bit numbering. -/

namespace Sys2Proof

/-- Format HOSTOP: the OP code selects the operation (30_encoding.md R80), which takes its operands from its own lines (R81). -/
def decodeHostop (op : BitVec 4) (l : HostLines) : Instr :=
  if op = 0x0 then .init l.link l.ttlEn l.ttl
  else if op = 0x1 then .crc16 l.bytes
  else if op = 0x2 then .bldReq l.payload
  else if op = 0x3 then .bldRdlong
  else if op = 0x4 then .bldRdori
  else if op = 0x5 then .bldRdinfo
  else if op = 0x6 then .bldWrled l.rule l.color
  else if op = 0x7 then .parse l.link l.now l.chunk
  else .hostopReserved op

/-- Format REQ: the payloads of the command table (30_encoding.md R84, R85, R86). -/
def decodeReq : Bytes → Except DecodeError Instr
  | [b0, b1, b2] =>
    if [b0, b1, b2] = [0x01, 0x21, 0x50] then .ok .reqRd5021
    else if [b0, b1, b2] = [0x01, 0x02, 0x54] then .ok .reqRd5402
    else if [b0, b1, b2] = [0x01, 0x0a, 0x18] then .ok .reqRd180A
    else .error .requestWord
  | [b0, b1, b2, c0, c1, r, g, b] =>
    if [b0, b1, b2] = [0x02, 0x11, 0x51] then .ok (.reqWr5111 (c1 ++ c0) r g b)
    else .error .requestWord
  | _ => .error .requestWord

/-- The instruction of a decode arm on a payload. -/
def armInstr : DecArm → Bytes → Instr
  | .err, p => .decErr p
  | .d5021, p => .dec5021 p
  | .d5402, p => .dec5402 p
  | .d180A, p => .dec180A p
  | .unsup, p => .decUnsup p
  | .bare, p => .decBare p

/-- Format RSP: the arm of the dispatch (30_encoding.md R94, 43_decode.md R202). -/
def decodeRsp (p : Bytes) : Except DecodeError Instr :=
  if p.length < 3 then .error (.responseShort p.length) else .ok (armInstr (Machine.dispatch p) p)

/-- Format TBL.STATUS: total on every key (30_encoding.md R90). -/
def decodeStatus (k : Byte) : Instr :=
  if k = 0x01 then .status01
  else if k = 0x02 then .status02
  else if k = 0x81 then .status81
  else if k = 0x82 then .status82
  else .statusDefault k

/-- Format TBL.ERROR: total on every key (30_encoding.md R91). -/
def decodeError (k : Byte) : Instr :=
  if k = 0x01 then .error01
  else if k = 0x02 then .error02
  else if k = 0x03 then .error03
  else if k = 0x04 then .error04
  else if k = 0x05 then .error05
  else if k = 0x06 then .error06
  else .errorDefault k

/-- Format TBL.VIB: total on every key (30_encoding.md R92). -/
def decodeVib (k : Byte) : Instr :=
  if k = 0x00 then .vib00
  else if k = 0x01 then .vib01
  else if k = 0x02 then .vib02
  else .vibDefault k

/-- Format TBL.RULE: the row of a code; the code 0x0000 is OFF's and the default row's, which the name line tells apart
(30_encoding.md R93). -/
def decodeRule (code : Half) (r : RuleOperand) : Except DecodeError Instr :=
  if code = 0x0000 then
    (match Machine.resolveRule r with
     | some _ => .ok .ruleOff
     | none => .ok (.ruleDefault r))
  else if code = 0x0001 then .ok .ruleOn
  else if code = 0x0002 then .ok .ruleTemperature
  else if code = 0x0003 then .ok .ruleHumidity
  else if code = 0x0004 then .ok .ruleIlluminance
  else if code = 0x0005 then .ok .ruleBarometricPressure
  else if code = 0x0006 then .ok .ruleSoundNoise
  else if code = 0x0007 then .ok .ruleEtvoc
  else if code = 0x0008 then .ok .ruleVibration
  else .error .ruleCode

/-- Format FRAME: header, length field, and as many bytes as it declares (20_memory.md R63, 30_encoding.md R82, R83). -/
def decodeFrame (f : Bytes) : Except DecodeError Instr :=
  if f.length < 4 then .error .frameShort
  else if Machine.headerGood f = false then .error .frameHeader
  else if f.length ≠ (Machine.le16 f 2).toNat + Config.overhead then .error .frameLength
  else .ok (.frame f)

/-- The instruction a presented word is, total on any bytes. -/
def decode (x : Presented) : Except DecodeError Instr :=
  match x.fmt with
  | .hostop =>
    match x.word with
    | [b] => if b.toNat < 16 then .ok (decodeHostop (b.setWidth 4) x.lines) else .error .hostWord
    | _ => .error .hostWord
  | .req => decodeReq x.word
  | .rsp => decodeRsp x.word
  | .tblStatus =>
    match x.word with
    | [k] => .ok (decodeStatus k)
    | _ => .error .tableKey
  | .tblError =>
    match x.word with
    | [k] => .ok (decodeError k)
    | _ => .error .tableKey
  | .tblVib =>
    match x.word with
    | [k] => .ok (decodeVib k)
    | _ => .error .tableKey
  | .tblRule =>
    match x.word with
    | [c0, c1] => decodeRule (c1 ++ c0) x.lines.rule
    | _ => .error .ruleCode
  | .frame => decodeFrame x.word

/-- The words of an instruction, from the encoding tables of 30_encoding.md (R80, R84 to R88, R90 to R93) and 20_memory.md R63. -/
def encode : Instr → Presented
  | .init k e t => { fmt := .hostop, word := [0x00], lines := { link := k, ttlEn := e, ttl := t } }
  | .crc16 bs => { fmt := .hostop, word := [0x01], lines := { bytes := bs } }
  | .bldReq p => { fmt := .hostop, word := [0x02], lines := { payload := p } }
  | .bldRdlong => { fmt := .hostop, word := [0x03] }
  | .bldRdori => { fmt := .hostop, word := [0x04] }
  | .bldRdinfo => { fmt := .hostop, word := [0x05] }
  | .bldWrled r c => { fmt := .hostop, word := [0x06], lines := { rule := r, color := c } }
  | .parse k t c => { fmt := .hostop, word := [0x07], lines := { link := k, now := t, chunk := c } }
  | .hostopReserved op => { fmt := .hostop, word := [op.setWidth 8] }
  | .reqRd5021 => { fmt := .req, word := [0x01, 0x21, 0x50] }
  | .reqRd5402 => { fmt := .req, word := [0x01, 0x02, 0x54] }
  | .reqRd180A => { fmt := .req, word := [0x01, 0x0a, 0x18] }
  | .reqWr5111 code r g b => { fmt := .req, word := [0x02, 0x11, 0x51] ++ Machine.u16le code ++ [r, g, b] }
  | .decErr p => { fmt := .rsp, word := p }
  | .dec5021 p => { fmt := .rsp, word := p }
  | .dec5402 p => { fmt := .rsp, word := p }
  | .dec180A p => { fmt := .rsp, word := p }
  | .decUnsup p => { fmt := .rsp, word := p }
  | .decBare p => { fmt := .rsp, word := p }
  | .status01 => { fmt := .tblStatus, word := [0x01] }
  | .status02 => { fmt := .tblStatus, word := [0x02] }
  | .status81 => { fmt := .tblStatus, word := [0x81] }
  | .status82 => { fmt := .tblStatus, word := [0x82] }
  | .statusDefault k => { fmt := .tblStatus, word := [k] }
  | .error01 => { fmt := .tblError, word := [0x01] }
  | .error02 => { fmt := .tblError, word := [0x02] }
  | .error03 => { fmt := .tblError, word := [0x03] }
  | .error04 => { fmt := .tblError, word := [0x04] }
  | .error05 => { fmt := .tblError, word := [0x05] }
  | .error06 => { fmt := .tblError, word := [0x06] }
  | .errorDefault k => { fmt := .tblError, word := [k] }
  | .vib00 => { fmt := .tblVib, word := [0x00] }
  | .vib01 => { fmt := .tblVib, word := [0x01] }
  | .vib02 => { fmt := .tblVib, word := [0x02] }
  | .vibDefault k => { fmt := .tblVib, word := [k] }
  | .ruleOff => { fmt := .tblRule, word := [0x00, 0x00], lines := { rule := .name "OFF" } }
  | .ruleOn => { fmt := .tblRule, word := [0x01, 0x00], lines := { rule := .name "ON" } }
  | .ruleTemperature => { fmt := .tblRule, word := [0x02, 0x00], lines := { rule := .name "Temperature" } }
  | .ruleHumidity => { fmt := .tblRule, word := [0x03, 0x00], lines := { rule := .name "Humidity" } }
  | .ruleIlluminance => { fmt := .tblRule, word := [0x04, 0x00], lines := { rule := .name "Illuminance" } }
  | .ruleBarometricPressure => { fmt := .tblRule, word := [0x05, 0x00], lines := { rule := .name "Barometric Pressure" } }
  | .ruleSoundNoise => { fmt := .tblRule, word := [0x06, 0x00], lines := { rule := .name "Sound Noise" } }
  | .ruleEtvoc => { fmt := .tblRule, word := [0x07, 0x00], lines := { rule := .name "eTVOC" } }
  | .ruleVibration => { fmt := .tblRule, word := [0x08, 0x00], lines := { rule := .name "Vibration" } }
  | .ruleDefault r => { fmt := .tblRule, word := [0x00, 0x00], lines := { rule := r } }
  | .frame f => { fmt := .frame, word := f }

/-! ## The opcode table's numbering: bit 0 is the least significant bit of the first byte -/

/-- The `n` bytes of a number, the byte of its lowest bits first. -/
def bytesOfNat : Nat → Nat → Bytes
  | 0, _ => []
  | n + 1, w => BitVec.ofNat 8 w :: bytesOfNat n (w / 256)

/-- A word given by its bits alone, laid out for the block. The spec's formats share words (1 is CRC16, STATUS.01, ERROR.01
and VIB.01), and the width and the value alone choose the format here: up to 8 bits HOSTOP, or TBL.STATUS where the high
four bits are not 0; up to 16 bits FRAME for the header, else TBL.RULE; up to 24 bits REQ for a command of the table, else
RSP; above, FRAME for the header, else RSP. The bytes above the given ones are 0. DESIGN CHOICE, safe: log entry 5. -/
def tableWord (nbits w : Nat) : Presented :=
  if nbits ≤ 8 then
    (if w < 16 then { fmt := .hostop, word := bytesOfNat 1 w } else { fmt := .tblStatus, word := bytesOfNat 1 w })
  else if nbits ≤ 16 then
    (if w = 0x4252 then { fmt := .frame, word := bytesOfNat 4 w } else { fmt := .tblRule, word := bytesOfNat 2 w })
  else if nbits ≤ 24 then
    (if w = 0x502101 ∨ w = 0x540201 ∨ w = 0x180A01 then { fmt := .req, word := bytesOfNat 3 w }
     else if w = 0x511102 then { fmt := .req, word := bytesOfNat 8 w }
     else { fmt := .rsp, word := bytesOfNat 38 w })
  else if w % 65536 = 0x4252 then { fmt := .frame, word := bytesOfNat (nbits / 8) w }
  else { fmt := .rsp, word := bytesOfNat 38 w }

/-- The instruction the decoder reads from an instruction whose bits are `w`. -/
def decodeTableWord (nbits w : Nat) : Option Instr :=
  match decode (tableWord nbits w) with
  | .ok i => some i
  | .error _ => none

end Sys2Proof
end

