-- ==== Sys2Proof/Machine/State.lean ====
section
/-! DEFINITION. The state of the block as plain data (10_state.md), the exceptions, faults and refusals, and the state
after reset. -/

namespace Sys2Proof.Machine

/-- The persistent registers of one parser (10_state.md R20 to R25). -/
structure Parser where
  /-- BUF: the concatenation of every chunk accepted for the frame in progress (R21). -/
  buf    : Bytes
  /-- EXPLEN: the expected total frame length, 0 for no frame in progress (R23). -/
  explen : BitVec 17
  /-- LASTTS: the time stamp of the last chunk accepted (R24). -/
  lastts : Nat
  /-- TTL_EN: a staleness timeout is configured (R25). -/
  ttlEn  : Bool
  /-- TTL: the staleness timeout, meaningful only when TTL_EN = 1 (R25). -/
  ttl    : Nat
  deriving DecidableEq, Repr

/-- The two states of a parser (10_state.md R27). -/
inductive PState
  | idle | buffering
  deriving DecidableEq, Repr

/-- The fields of `data` for address 0x5021, raw at their own widths (30_encoding.md R89, R98; 43_decode.md R205). -/
structure SensorData where
  id                 : Byte
  temperature        : Half
  humidity           : Half
  illuminance        : Half
  barometricPressure : Word32
  soundNoise         : Half
  etvoc              : Half
  eco2               : Half
  discomfortIndex    : Half
  heatStroke         : Half
  vibrationStatus    : VibText
  vibrationCode      : Byte
  spectralIntensity  : Half
  seismicIntensity   : Half
  deriving DecidableEq, Repr

/-- The fields of a sensor record that carry a number (30_encoding.md R89). -/
inductive SensorField
  | id | temperature | humidity | illuminance | barometricPressure | soundNoise | etvoc | eco2
  | discomfortIndex | heatStroke | spectralIntensity | seismicIntensity
  deriving DecidableEq, Repr

/-- The fields of `data` for address 0x180A, raw bytes (30_encoding.md R99, R101; 43_decode.md R207). -/
structure DeviceInfo where
  model           : Bytes
  serialNumber    : Bytes
  firmwareVersion : Bytes
  hardwareVersion : Bytes
  manufacturer    : Bytes
  deriving DecidableEq, Repr

/-- What a decode arm adds to status and address; the constructor is KIND (10_state.md R30). `errRsp` has no `data`, `bare`
has the empty record. -/
inductive Body
  | errRsp (errorCode : Byte) (error : Option ErrorText)
  | d5021 (data : SensorData)
  | d5402 (position : Byte)
  | d180A (data : DeviceInfo)
  | bare
  deriving DecidableEq, Repr

/-- A decoded record (10_state.md R30). -/
structure DecodedRecord where
  statusCode : Byte
  status     : StatusText
  address    : Half
  body       : Body
  deriving DecidableEq, Repr

/-- RESP: `finished`, and the record when there is one (10_state.md R30). -/
structure Resp where
  finished : Bool
  record   : Option DecodedRecord
  deriving DecidableEq, Repr

/-- What an operation other than PARSE hands to the host (30_encoding.md R81): a checksum, a FRAME, and for a table word the
entry it selects. DESIGN CHOICE, safe: the model's own port, log entries 4 and 11. -/
inductive Output
  | none
  | crc (v : Half)
  | frame (f : Bytes)
  | status (t : StatusText)
  | error (t : Option ErrorText)
  | vib (t : VibText)
  | code (c : Half)
  deriving DecidableEq, Repr

/-- The exceptions with their diagnostic values (60_exceptions.md R241, R242). -/
inductive Exn
  | inputType
  | shortStart (len : Nat)
  | headerMismatch (found : Half)
  | crcMismatch (stored computed : Half)
  | unsupportedAddress (address : Half) (status : Byte)
  | overrun (total expected : Nat)
  | payloadLength (len need : Nat)
  | buildLength (len : Nat)
  | refusedOperation (op : BitVec 4)
  deriving DecidableEq, Repr

/-- The state of the block. RESP, ERR, ERRCAUSE, ERRINFO0 and ERRINFO1 stand once for the block, not once for each parser: 10_state.md
R37 lists them in the state after an instance's INIT, R40 leaves them out of what each instance has. DESIGN CHOICE, unsafe: log
entry 27. -/
structure State where
  /-- The host's operations the block has not begun, oldest first: the model's own field (log entry 1). -/
  pending  : List HostOp
  /-- A word at the input of one of the block's units, by itself: the model's own field (log entry 4). No operation of the
  host sets it and no step does, so it is empty in every run from reset (43_decode.md R200). -/
  unitWord : Option Presented
  /-- The constructed parsers by link, links strictly rising (10_state.md R40; log entry 2). -/
  parsers  : List (Nat × Parser)
  /-- RESP, of the last operation that wrote it on any link (log entry 27); `none` after an operation that raised (10_state.md
  R30). -/
  resp     : Option Resp
  /-- ERR (10_state.md R31). -/
  err      : Nat
  /-- ERRCAUSE (10_state.md R31). -/
  errcause : Nat
  /-- ERRINFO0 (10_state.md R31). -/
  errinfo0 : Nat
  /-- ERRINFO1 (10_state.md R31). -/
  errinfo1 : Nat
  /-- The result port: the model's own field (log entry 11). -/
  out      : Output
  /-- Every exception raised so far, oldest first, kept beside the block (10_state.md R34; log entry 8). -/
  faultLog : List Exn
  /-- How many free values of TTL have been drawn: the model's own field (log entry 12). -/
  draws    : Nat
  deriving DecidableEq, Repr

/-- The reasons the machine stops. -/
inductive Fault
  /-- PARSE on a link whose parser was never constructed: "a model gives PARSE on an unconstructed instance no step"
  (70_reset_and_hazards.md R281, V9). Raised by execParse. Safe. -/
  | unconstructed (link : Nat)
  deriving DecidableEq, Repr

/-- The reasons the model gives no meaning. -/
inductive Refusal
  /-- An instruction without a meaning yet. Raised by an arm of exec. Safe. -/
  | notModelled (mnemonic : String)
  /-- A word that no row of the opcode table stands for (log entry 4). Raised by rejectWord. Safe. -/
  | undecodable (reason : DecodeError)
  /-- A malformed colour value, which the spec has the model refuse (30_encoding.md R106, V4; log entry 15). Raised by
  execBldWrled. Safe. -/
  | colorUnresolved
  deriving DecidableEq, Repr

/-- The outcome of one operation. -/
abbrev Result := Host.Outcome State Fault Refusal

/-- A parser right after INIT (42_parser.md R171, 10_state.md R37). -/
def Parser.fresh (ttlEn : Bool) (ttl : Nat) : Parser :=
  { buf := [], explen := 0, lastts := 0, ttlEn := ttlEn, ttl := ttl }

/-- The incomplete-frame marker: finished = 0, KIND = NONE (10_state.md R30); RESP after INIT (R37). -/
def Resp.incomplete : Resp := { finished := false, record := none }

/-- The machine right after reset, which is INIT (70_reset_and_hazards.md R281), with the values of 10_state.md R37. The
one parser is that of link 0, its timeout absent. DESIGN CHOICE, unsafe: log entry 3. -/
def State.reset : State :=
  { pending := [], unitWord := none, parsers := [(0, Parser.fresh false 0)], resp := some Resp.incomplete,
    err := 0, errcause := 0, errinfo0 := 0, errinfo1 := 0, out := .none, faultLog := [], draws := 0 }

end Sys2Proof.Machine
end

