-- ==== Sys2Proof/Machine/Flags.lean ====
section
/-! DEFINITION. The flag-like outputs: the numeric exception codes (60_exceptions.md R241, R242), and KIND, ERROR_VALID and the
presence of `data` as views of RESP (10_state.md R30, R32). -/

namespace Sys2Proof.Machine

/-- The class code ERR of an exception (60_exceptions.md R241). -/
def Exn.errClass : Exn → Nat
  | .inputType => 1
  | .shortStart _ => 1
  | .headerMismatch _ => 1
  | .crcMismatch _ _ => 1
  | .unsupportedAddress _ _ => 2
  | .overrun _ _ => 3
  | .payloadLength _ _ => 4
  | .buildLength _ => 5
  | .refusedOperation _ => 6

/-- The cause code ERRCAUSE of an exception (60_exceptions.md R241). -/
def Exn.causeCode : Exn → Nat
  | .inputType => 1
  | .shortStart _ => 2
  | .headerMismatch _ => 3
  | .crcMismatch _ _ => 4
  | .unsupportedAddress _ _ => 1
  | .overrun _ _ => 1
  | .payloadLength _ _ => 1
  | .buildLength _ => 1
  | .refusedOperation _ => 1

/-- ERRINFO0 of an exception (60_exceptions.md R242). -/
def Exn.infoFirst : Exn → Nat
  | .inputType => 0
  | .shortStart len => len
  | .headerMismatch found => found.toNat
  | .crcMismatch stored _ => stored.toNat
  | .unsupportedAddress address _ => address.toNat
  | .overrun total _ => total
  | .payloadLength len _ => len
  | .buildLength len => len
  | .refusedOperation op => op.toNat

/-- ERRINFO1 of an exception (60_exceptions.md R242). -/
def Exn.infoSecond : Exn → Nat
  | .inputType => 0
  | .shortStart _ => 4
  | .headerMismatch _ => Config.header.toNat
  | .crcMismatch _ computed => computed.toNat
  | .unsupportedAddress _ status => status.toNat
  | .overrun _ expected => expected
  | .payloadLength _ need => need
  | .buildLength _ => Config.payloadMax
  | .refusedOperation _ => 0

/-- KIND, the 3-bit code of the arm that produced the record, 0 for no record (10_state.md R30). -/
def Resp.kind (r : Resp) : BitVec 3 :=
  match r.record with
  | none => 0
  | some d =>
    match d.body with
    | .errRsp _ _ => 1
    | .d5021 _ => 2
    | .d5402 _ => 3
    | .d180A _ => 4
    | .bare => 5

/-- ERROR_VALID: `error` is defined (10_state.md R30, 30_encoding.md R91). -/
def Body.errorValid : Body → Bool
  | .errRsp _ error => error.isSome
  | .d5021 _ => false
  | .d5402 _ => false
  | .d180A _ => false
  | .bare => false

/-- The record has a `data` field, which an error response has not (10_state.md R30). -/
def Body.hasData : Body → Bool
  | .errRsp _ _ => false
  | .d5021 _ => true
  | .d5402 _ => true
  | .d180A _ => true
  | .bare => true

/-- PSTATE (10_state.md R27): IDLE if and only if EXPLEN = 0. -/
def Parser.pstate (p : Parser) : PState := if p.explen = 0 then .idle else .buffering

/-- BUFLEN (10_state.md R22). -/
def Parser.buflen (p : Parser) : Nat := p.buf.length

end Sys2Proof.Machine
end

