-- ==== Sys2Proof/Machine/Ops.lean ====
section
/-! DEFINITION. The named operations: the store of parsers, the parser's own registers, ending an operation normally,
and taking an exception. -/

namespace Sys2Proof.Machine

/-! ## The parsers, one per link (10_state.md R40, 60_exceptions.md R262) -/

/-- The parser of a link, if it was constructed. -/
def parserAt : List (Nat × Parser) → Nat → Option Parser
  | [], _ => none
  | (j, p) :: rest, k => if k = j then some p else parserAt rest k

/-- The parsers with that of link `k` replaced or added, links kept strictly rising. -/
def putParser : List (Nat × Parser) → Nat → Parser → List (Nat × Parser)
  | [], k, p => [(k, p)]
  | (j, q) :: rest, k, p =>
    if k < j then (k, p) :: (j, q) :: rest
    else if k = j then (k, p) :: rest
    else (j, q) :: putParser rest k p

/-- The parser of link `k`. -/
def State.parser (s : State) (k : Nat) : Option Parser := parserAt s.parsers k

/-- Writes the registers of the parser of link `k`. -/
def State.setParser (s : State) (k : Nat) (p : Parser) : State := { s with parsers := putParser s.parsers k p }

/-! ## The registers of one parser -/

/-- The reset at discharge, on staleness and on over-length: BUF, EXPLEN and LASTTS, the timeout left alone
(70_reset_and_hazards.md R282). -/
def Parser.clear (p : Parser) : Parser := { p with buf := [], explen := 0, lastts := 0 }

/-- The staleness condition: BUFFERING, a timeout, and an integer elapsed time of at least TTL (42_parser.md R174). With TTL = 0
and `now` before LASTTS, R174 and D6 (a negative difference is not stale) collide with 10_state.md R25 and D7 (with TTL = 0
every PARSE in BUFFERING discards); the comparison of R174 is kept. DESIGN CHOICE, unsafe: log entry 26. -/
def Parser.stale (p : Parser) (now : Nat) : Bool :=
  p.explen != 0 && p.ttlEn && decide ((p.ttl : Int) ≤ (now : Int) - (p.lastts : Int))

/-- Step 2, the staleness check (42_parser.md R174). -/
def Parser.expire (p : Parser) (now : Nat) : Parser := if p.stale now then p.clear else p

/-- Step 3, frame start (42_parser.md R175). -/
def Parser.start (p : Parser) (chunk : Bytes) : Except Exn Parser :=
  if chunk.length < 4 then .error (.shortStart chunk.length)
  else if headerGood chunk = false then .error (.headerMismatch (le16 chunk 0))
  else .ok { p with explen := (le16 chunk 2).setWidth 17 + 4, buf := chunk }

/-- Step 4, frame continuation (42_parser.md R176). -/
def Parser.append (p : Parser) (chunk : Bytes) : Parser := { p with buf := p.buf ++ chunk }

/-- Steps 3 and 4: frame start in IDLE, continuation in BUFFERING (42_parser.md R173). -/
def Parser.accept (p : Parser) (chunk : Bytes) : Except Exn Parser :=
  if p.explen = 0 then p.start chunk else .ok (p.append chunk)

/-- Step 5, the time stamp (42_parser.md R177). -/
def Parser.stamp (p : Parser) (now : Nat) : Parser := { p with lastts := now }

/-- What a chunk leads to before anything is decoded (42_parser.md R178, R179, R180). -/
inductive Fed
  | incomplete
  | raised (e : Exn)
  | complete (frame : Bytes)
  deriving DecidableEq, Repr

/-- Step 6, the comparison of BUFLEN with EXPLEN and the reset at discharge and over-length (42_parser.md R178 to R180). -/
def Parser.settle (p : Parser) : Parser × Fed :=
  if p.buf.length < p.explen.toNat then (p, .incomplete)
  else if p.explen.toNat < p.buf.length then (p.clear, .raised (.overrun p.buf.length p.explen.toNat))
  else (p.clear, .complete p.buf)

/-- Steps 2 to 6 up to the reset at discharge (42_parser.md R173). -/
def Parser.feed (p : Parser) (now : Nat) (chunk : Bytes) : Parser × Fed :=
  match (p.expire now).accept chunk with
  | .error e => (p.expire now, .raised e)
  | .ok q => (q.stamp now).settle

/-! ## The end of an operation -/

/-- A normal end: the exception outputs are 0 (10_state.md R31, R38), and the result port holds the operation's result.
DEDUCED, safe: log entries 9 and 11. -/
def State.finish (s : State) (o : Output) : State :=
  { s with err := 0, errcause := 0, errinfo0 := 0, errinfo1 := 0, out := o }

/-- A normal end with RESP written: PARSE, and INIT's idle RESP (10_state.md R30, R37). -/
def State.respond (s : State) (r : Resp) : State := { s.finish .none with resp := some r }

/-- Taking an exception (60_exceptions.md R254): ERR, ERRCAUSE, ERRINFO0, ERRINFO1 take the values of R241 and R242, RESP has
no valid value, no result is produced, writes already made stay, and control is back with the host. There is no return
operation (R255). The log beside the block records it. DEDUCED, safe: log entries 7, 8, 10. -/
def State.raise (s : State) (e : Exn) : State :=
  { s with err := e.errClass, errcause := e.causeCode, errinfo0 := e.infoFirst, errinfo1 := e.infoSecond,
           resp := none, out := .none, faultLog := s.faultLog ++ [e] }

/-- An operation that ends in a result or in an exception. -/
def State.endWith (s : State) : Except Exn Output → State
  | .ok o => s.finish o
  | .error e => s.raise e

/-- A decode that ends in a record or in an exception; the caller's mark finished = 1 goes with the record
(42_parser.md R180). -/
def State.endRecord (s : State) : Except Exn DecodedRecord → State
  | .ok d => s.respond { finished := true, record := some d }
  | .error e => s.raise e

/-! ## Taking the next operation -/

/-- The word to run next, and the state without it: that at a unit's input where one stands (log entry 4), else the oldest
operation the host has issued (20_memory.md R65; log entry 1). -/
def State.fetch (s : State) : Option (Presented × State) :=
  match s.unitWord, s.pending with
  | some x, _ => some (x, { s with unitWord := none })
  | none, o :: rest => some (o.word, { s with pending := rest })
  | none, [] => none

/-- A word placed where the next step runs it: a host operation at the head of the queue, with no unit word before it, a
word of any other format at its unit's input (log entries 1 and 4). -/
def State.place (s : State) (x : Presented) : State :=
  match x.fmt, x.word with
  | .hostop, [b] =>
    if b.toNat < 16 then { s with pending := { op := b.setWidth 4, lines := x.lines } :: s.pending, unitWord := none }
    else { s with unitWord := some x }
  | _, _ => { s with unitWord := some x }

/-- Nothing is issued: the block waits, and nothing changes (70_reset_and_hazards.md R283, 60_exceptions.md R250). -/
def State.wait (s : State) : State := s

/-- A word no row stands for. A response payload of fewer than 3 bytes raises as the dispatch does (43_decode.md R202); any
other is refused by name. -/
def rejectWord (e : DecodeError) (s : State) : Result :=
  match e with
  | .responseShort len => .next (s.raise (.payloadLength len 3))
  | .hostWord => .refused (.undecodable .hostWord)
  | .requestWord => .refused (.undecodable .requestWord)
  | .tableKey => .refused (.undecodable .tableKey)
  | .ruleCode => .refused (.undecodable .ruleCode)
  | .frameShort => .refused (.undecodable .frameShort)
  | .frameHeader => .refused (.undecodable .frameHeader)
  | .frameLength => .refused (.undecodable .frameLength)

end Sys2Proof.Machine
end

