-- ==== Sys2Proof/Machine/Crc.lean ====
section
/-! DEFINITION. Unit CRC: the checksum primitive and the host operation CRC16 (40_crc.md). -/

namespace Sys2Proof.Machine

/-- One iteration: test the low bit, shift right, XOR the feedback constant where the bit was set (40_crc.md R121). -/
def crcBit (r : Half) : Half := if r.getLsbD 0 then (r >>> 1) ^^^ Config.crcFeedback else r >>> 1

/-- `n` iterations. -/
def crcBits : Nat → Half → Half
  | 0, r => r
  | n + 1, r => crcBits n (crcBit r)

/-- One byte: XOR into bits 7 to 0 of CRCREG, then eight iterations (40_crc.md R121). -/
def crcByte (r : Half) (b : Byte) : Half := crcBits 8 (r ^^^ b.setWidth 16)

/-- CRCREG after a byte sequence, from a given start (40_crc.md R124; the block starts from CRC_INIT only). -/
def crcRun (r : Half) (bs : Bytes) : Half := bs.foldl crcByte r

/-- crc16 (40_crc.md R121). -/
def crc16 (bs : Bytes) : Half := crcRun Config.crcInit bs

/-- CRC16 (40_crc.md R121). -/
def execCrc16 (bytes : Bytes) (s : State) : Result := .next (s.finish (.crc (crc16 bytes)))

end Sys2Proof.Machine
end

