-- ==== Sys2Proof/Machine/Builder.lean ====
section
/-! DEFINITION. Unit BLD: the five Builder operations (41_builder.md) and the request words they emit (30_encoding.md R84 to
R86). -/

namespace Sys2Proof.Machine

/-- Header, length and payload of a frame, the bytes its checksum covers (41_builder.md R141, 20_memory.md R63). -/
def frameHead (payload : Bytes) : Bytes :=
  [Config.headerB0, Config.headerB1] ++ u16le (BitVec.ofNat 16 (payload.length + Config.lenBias)) ++ payload

/-- The frame of a payload (41_builder.md R141, 20_memory.md R63). -/
def wrap (payload : Bytes) : Bytes := frameHead payload ++ u16le (crc16 (frameHead payload))

/-- buildRequest: FRAME, or BuildLengthError above PAYLOAD_MAX bytes (41_builder.md R141). -/
def buildRequest (payload : Bytes) : Except Exn Output :=
  if Config.payloadMax < payload.length then .error (.buildLength payload.length) else .ok (.frame (wrap payload))

/-- The payload of a read request (30_encoding.md R84). -/
def readPayload (register : Half) : Bytes := [Config.opRead] ++ u16le register

/-- The payload of a write-LED request (30_encoding.md R85). -/
def writeLedPayload (code : Half) (rgb : Bytes) : Bytes := [Config.opWrite] ++ u16le Config.regLed ++ u16le code ++ rgb

/-- The colour bytes of a write-LED request: the colour under "ON", zeros under any other rule (41_builder.md R145). -/
def ledColor (rule : RuleOperand) (color : Nat) : Bytes := if ruleIsOn rule then colorBytes color else [0, 0, 0]

/-- BLD.REQ (41_builder.md R141). -/
def execBldReq (payload : Bytes) (s : State) : Result := .next (s.endWith (buildRequest payload))

/-- BLD.RDLONG (41_builder.md R142). -/
def execBldRdlong (s : State) : Result := .next (s.endWith (buildRequest (readPayload Config.regLatestLong)))

/-- BLD.RDORI (41_builder.md R143). -/
def execBldRdori (s : State) : Result := .next (s.endWith (buildRequest (readPayload Config.regMountOrient)))

/-- BLD.RDINFO (41_builder.md R144). -/
def execBldRdinfo (s : State) : Result := .next (s.endWith (buildRequest (readPayload Config.regDeviceInfo)))

/-- BLD.WRLED (41_builder.md R145) after colour resolution (30_encoding.md R106); the values that rule has a model refuse are
refused by name (log entry 15). -/
def execBldWrled (rule : RuleOperand) (color : ColorOperand) (s : State) : Result :=
  match resolveColor color with
  | some c => .next (s.endWith (buildRequest (writeLedPayload (ruleCode rule) (ledColor rule c))))
  | none => .refused .colorUnresolved

/-- REQ.RD5021: the request payload 01 21 50, as BLD.RDLONG emits it (30_encoding.md R86). -/
def execReqRd5021 (s : State) : Result := .next (s.endWith (buildRequest (readPayload 0x5021)))

/-- REQ.RD5402: the request payload 01 02 54, as BLD.RDORI emits it (30_encoding.md R86). -/
def execReqRd5402 (s : State) : Result := .next (s.endWith (buildRequest (readPayload 0x5402)))

/-- REQ.RD180A: the request payload 01 0a 18, as BLD.RDINFO emits it (30_encoding.md R86). -/
def execReqRd180A (s : State) : Result := .next (s.endWith (buildRequest (readPayload 0x180A)))

/-- REQ.WR5111: a write-LED payload, as BLD.WRLED emits it (30_encoding.md R85, R86). -/
def execReqWr5111 (code : Half) (red green blue : Byte) (s : State) : Result :=
  .next (s.endWith (buildRequest (writeLedPayload code [red, green, blue])))

end Sys2Proof.Machine
end

