-- ==== Sys2Proof/Machine/Response.lean ====
section
/-! DEFINITION. Unit DEC: the six decode arms and the dispatch (43_decode.md). -/

namespace Sys2Proof.Machine

/-- The guard of an arm: its bytes are there, or PayloadLengthError before any field is read (43_decode.md R203). -/
def guarded (p : Bytes) (a : DecArm) (r : Except Exn DecodedRecord) : Except Exn DecodedRecord :=
  if p.length < need a then .error (.payloadLength p.length (need a)) else r

/-- The record of an arm: status, its text and address of every arm, and the arm's body (43_decode.md R202). -/
def recordOf (p : Bytes) (b : Body) : DecodedRecord :=
  { statusCode := byteAt p 0, status := statusText (byteAt p 0), address := le16 p 1, body := b }

/-- The sensor fields at their fixed offsets (43_decode.md R205, 30_encoding.md R89). -/
def sensorData (p : Bytes) : SensorData :=
  { id := byteAt p 3
    temperature := le16 p 4
    humidity := le16 p 6
    illuminance := le16 p 8
    barometricPressure := le32 p 10
    soundNoise := le16 p 14
    etvoc := le16 p 16
    eco2 := le16 p 18
    discomfortIndex := le16 p 20
    heatStroke := le16 p 22
    vibrationStatus := vibText (byteAt p 24)
    vibrationCode := byteAt p 24
    spectralIntensity := le16 p 25
    seismicIntensity := le16 p 29 }

/-- The five ASCII ranges (43_decode.md R207, 30_encoding.md R101). -/
def deviceInfo (p : Bytes) : DeviceInfo :=
  { model := slice p 3 13
    serialNumber := slice p 13 23
    firmwareVersion := slice p 23 28
    hardwareVersion := slice p 28 33
    manufacturer := slice p 33 38 }

/-- The integer a sensor field carries: unsigned for `id`, two's complement for the others (30_encoding.md R89, R97). -/
def SensorData.raw (d : SensorData) : SensorField → Int
  | .id => d.id.toNat
  | .temperature => d.temperature.toInt
  | .humidity => d.humidity.toInt
  | .illuminance => d.illuminance.toInt
  | .barometricPressure => d.barometricPressure.toInt
  | .soundNoise => d.soundNoise.toInt
  | .etvoc => d.etvoc.toInt
  | .eco2 => d.eco2.toInt
  | .discomfortIndex => d.discomfortIndex.toInt
  | .heatStroke => d.heatStroke.toInt
  | .spectralIntensity => d.spectralIntensity.toInt
  | .seismicIntensity => d.seismicIntensity.toInt

/-- The decimal exponent of a sensor field, a constant of the field (30_encoding.md R89, R98). -/
def fieldScale : SensorField → Nat
  | .id => 0
  | .temperature => 2
  | .humidity => 2
  | .illuminance => 0
  | .barometricPressure => 3
  | .soundNoise => 2
  | .etvoc => 0
  | .eco2 => 0
  | .discomfortIndex => 2
  | .heatStroke => 2
  | .spectralIntensity => 1
  | .seismicIntensity => 3

/-- The decoded value of a sensor field, an exact rational (30_encoding.md R98, 43_decode.md R210). -/
def SensorData.value (d : SensorData) (f : SensorField) : Rat := scaled (d.raw f) (fieldScale f)

/-- DEC.ERR: error response (43_decode.md R204). -/
def execDecErr (p : Bytes) (s : State) : Result :=
  .next (s.endRecord (guarded p .err (.ok (recordOf p (.errRsp (byteAt p 3) (errorText (byteAt p 3)))))))

/-- DEC.5021: latest sensor data, long form (43_decode.md R205). -/
def execDec5021 (p : Bytes) (s : State) : Result :=
  .next (s.endRecord (guarded p .d5021 (.ok (recordOf p (.d5021 (sensorData p))))))

/-- DEC.5402: mounting orientation (43_decode.md R206). -/
def execDec5402 (p : Bytes) (s : State) : Result :=
  .next (s.endRecord (guarded p .d5402 (.ok (recordOf p (.d5402 (byteAt p 3))))))

/-- DEC.180A: device information (43_decode.md R207). -/
def execDec180A (p : Bytes) (s : State) : Result :=
  .next (s.endRecord (guarded p .d180A (.ok (recordOf p (.d180A (deviceInfo p))))))

/-- DEC.UNSUP: unsupported address under Read OK, always an exception (43_decode.md R208). -/
def execDecUnsup (p : Bytes) (s : State) : Result :=
  .next (s.endRecord (guarded p .unsup (.error (.unsupportedAddress (le16 p 1) (byteAt p 0)))))

/-- DEC.BARE: any other success response (43_decode.md R209). -/
def execDecBare (p : Bytes) (s : State) : Result :=
  .next (s.endRecord (guarded p .bare (.ok (recordOf p .bare))))

/-- The arms by name. -/
def execArm (a : DecArm) (p : Bytes) (s : State) : Result :=
  match a with
  | .err => execDecErr p s
  | .d5021 => execDec5021 p s
  | .d5402 => execDec5402 p s
  | .d180A => execDec180A p s
  | .unsup => execDecUnsup p s
  | .bare => execDecBare p s

/-- DECODE (43_decode.md R202): the common length guard, then the arm the dispatch selects. -/
def decodePayload (p : Bytes) (s : State) : Result :=
  if p.length < 3 then .next (s.raise (.payloadLength p.length 3)) else execArm (dispatch p) p s

end Sys2Proof.Machine
end

