-- ==== Sys2Proof/Machine/ParserUnit.lean ====
section
/-! DEFINITION. Unit PAR: INIT, PARSE, and a whole frame at discharge (42_parser.md); the reserved OP codes. -/

namespace Sys2Proof.Machine

/-- INIT (42_parser.md R171): a fresh parser on the link, whatever stood there (D27), and the status outputs and RESP as
10_state.md R37 gives them. With ttl_en = 0 the operand ttl is not read and TTL is a free value (log entry 12). -/
def execInit (link : Nat) (ttlEn : Bool) (ttl : Nat) (s : State) : Result :=
  match ttlEn with
  | true => .next ((s.setParser link (Parser.fresh true ttl)).respond Resp.incomplete)
  | false =>
    .next { (s.setParser link (Parser.fresh false (Config.freeTtl s.draws))).respond Resp.incomplete with
      draws := s.draws + 1 }

/-- Validation of a completed frame and its decode, after the reset (42_parser.md R180 (c) to (g)). -/
def discharge (f : Bytes) (s : State) : Result :=
  if crc16 (frameBody f) = frameStored f then decodePayload (framePayload f) s
  else .next (s.raise (.crcMismatch (frameStored f) (crc16 (frameBody f))))

/-- The end of a PARSE after the parser's registers were written (42_parser.md R173 step 6). -/
def endParse (r : Fed) (s : State) : Result :=
  match r with
  | .incomplete => .next (s.respond Resp.incomplete)
  | .raised e => .next (s.raise e)
  | .complete f => discharge f s

/-- PARSE (42_parser.md R173), normalisation (R172) included. On a link that was never constructed it has no step
(70_reset_and_hazards.md R281). -/
def execParse (link : Nat) (now : Nat) (chunk : ChunkOperand) (s : State) : Result :=
  match s.parser link with
  | none => .fault (.unconstructed link)
  | some p =>
    match norm chunk with
    | none => .next (s.raise .inputType)
    | some c => endParse (p.feed now c).2 (s.setParser link (p.feed now c).1)

/-- Reserved OP codes raise RefusedOperation (30_encoding.md R80, 60_exceptions.md R252). -/
def execHostopReserved (op : BitVec 4) (s : State) : Result := .next (s.raise (.refusedOperation op))

/-- FRAME: a whole frame as it stands at discharge is validated and decoded (42_parser.md R180; log entry 4). -/
def execFrame (f : Bytes) (s : State) : Result := discharge f s

end Sys2Proof.Machine
end

