-- ==== Sys2Proof/Machine/Tables.lean ====
section
/-! DEFINITION. The rows of the four lookup tables as words by themselves: each hands over the entry it selects
(30_encoding.md R90 to R93; log entry 4). The operations reach the same tables through statusText, errorText, vibText and
ruleCode. -/

namespace Sys2Proof.Machine

/-- STATUS.01 (30_encoding.md R90). -/
def execStatus01 (s : State) : Result := .next (s.finish (.status (statusText 0x01)))

/-- STATUS.02 (30_encoding.md R90). -/
def execStatus02 (s : State) : Result := .next (s.finish (.status (statusText 0x02)))

/-- STATUS.81 (30_encoding.md R90). -/
def execStatus81 (s : State) : Result := .next (s.finish (.status (statusText 0x81)))

/-- STATUS.82 (30_encoding.md R90). -/
def execStatus82 (s : State) : Result := .next (s.finish (.status (statusText 0x82)))

/-- STATUS.DEFAULT (30_encoding.md R90). -/
def execStatusDefault (key : Byte) (s : State) : Result := .next (s.finish (.status (statusText key)))

/-- ERROR.01 (30_encoding.md R91). -/
def execError01 (s : State) : Result := .next (s.finish (.error (errorText 0x01)))

/-- ERROR.02 (30_encoding.md R91). -/
def execError02 (s : State) : Result := .next (s.finish (.error (errorText 0x02)))

/-- ERROR.03 (30_encoding.md R91). -/
def execError03 (s : State) : Result := .next (s.finish (.error (errorText 0x03)))

/-- ERROR.04 (30_encoding.md R91). -/
def execError04 (s : State) : Result := .next (s.finish (.error (errorText 0x04)))

/-- ERROR.05 (30_encoding.md R91). -/
def execError05 (s : State) : Result := .next (s.finish (.error (errorText 0x05)))

/-- ERROR.06 (30_encoding.md R91). -/
def execError06 (s : State) : Result := .next (s.finish (.error (errorText 0x06)))

/-- ERROR.DEFAULT: `error` is undefined, ERROR_VALID = 0 (30_encoding.md R91). -/
def execErrorDefault (key : Byte) (s : State) : Result := .next (s.finish (.error (errorText key)))

/-- VIB.00 (30_encoding.md R92). -/
def execVib00 (s : State) : Result := .next (s.finish (.vib (vibText 0x00)))

/-- VIB.01 (30_encoding.md R92). -/
def execVib01 (s : State) : Result := .next (s.finish (.vib (vibText 0x01)))

/-- VIB.02 (30_encoding.md R92). -/
def execVib02 (s : State) : Result := .next (s.finish (.vib (vibText 0x02)))

/-- VIB.DEFAULT (30_encoding.md R92). -/
def execVibDefault (key : Byte) (s : State) : Result := .next (s.finish (.vib (vibText key)))

/-- RULE.OFF (30_encoding.md R93). -/
def execRuleOff (s : State) : Result := .next (s.finish (.code (displayRuleCode .off)))

/-- RULE.ON (30_encoding.md R93). -/
def execRuleOn (s : State) : Result := .next (s.finish (.code (displayRuleCode .on)))

/-- RULE.Temperature (30_encoding.md R93). -/
def execRuleTemperature (s : State) : Result := .next (s.finish (.code (displayRuleCode .temperature)))

/-- RULE.Humidity (30_encoding.md R93). -/
def execRuleHumidity (s : State) : Result := .next (s.finish (.code (displayRuleCode .humidity)))

/-- RULE.Illuminance (30_encoding.md R93). -/
def execRuleIlluminance (s : State) : Result := .next (s.finish (.code (displayRuleCode .illuminance)))

/-- RULE.Barometric_Pressure (30_encoding.md R93). -/
def execRuleBarometricPressure (s : State) : Result := .next (s.finish (.code (displayRuleCode .barometricPressure)))

/-- RULE.Sound_Noise (30_encoding.md R93). -/
def execRuleSoundNoise (s : State) : Result := .next (s.finish (.code (displayRuleCode .soundNoise)))

/-- RULE.eTVOC (30_encoding.md R93). -/
def execRuleEtvoc (s : State) : Result := .next (s.finish (.code (displayRuleCode .etvoc)))

/-- RULE.Vibration (30_encoding.md R93). -/
def execRuleVibration (s : State) : Result := .next (s.finish (.code (displayRuleCode .vibration)))

/-- RULE.DEFAULT (30_encoding.md R93). -/
def execRuleDefault (rule : RuleOperand) (s : State) : Result := .next (s.finish (.code (ruleCode rule)))

end Sys2Proof.Machine
end

