-- ==== Sys2Proof/Machine/Dispatch.lean ====
section
/-! DEFINITION. One arm per constructor of Instr, each one direct call of the instruction's meaning. -/

namespace Sys2Proof.Machine

def exec (i : Instr) (s : State) : Host.Outcome State Fault Refusal :=
  match i with
  | .init link ttlEn ttl => Sys2Proof.Machine.execInit link ttlEn ttl s
  | .crc16 bytes => Sys2Proof.Machine.execCrc16 bytes s
  | .bldReq payload => Sys2Proof.Machine.execBldReq payload s
  | .bldRdlong => Sys2Proof.Machine.execBldRdlong s
  | .bldRdori => Sys2Proof.Machine.execBldRdori s
  | .bldRdinfo => Sys2Proof.Machine.execBldRdinfo s
  | .bldWrled rule color => Sys2Proof.Machine.execBldWrled rule color s
  | .parse link now chunk => Sys2Proof.Machine.execParse link now chunk s
  | .hostopReserved op => Sys2Proof.Machine.execHostopReserved op s
  | .reqRd5021 => Sys2Proof.Machine.execReqRd5021 s
  | .reqRd5402 => Sys2Proof.Machine.execReqRd5402 s
  | .reqRd180A => Sys2Proof.Machine.execReqRd180A s
  | .reqWr5111 code red green blue => Sys2Proof.Machine.execReqWr5111 code red green blue s
  | .decErr p => Sys2Proof.Machine.execDecErr p s
  | .dec5021 p => Sys2Proof.Machine.execDec5021 p s
  | .dec5402 p => Sys2Proof.Machine.execDec5402 p s
  | .dec180A p => Sys2Proof.Machine.execDec180A p s
  | .decUnsup p => Sys2Proof.Machine.execDecUnsup p s
  | .decBare p => Sys2Proof.Machine.execDecBare p s
  | .status01 => Sys2Proof.Machine.execStatus01 s
  | .status02 => Sys2Proof.Machine.execStatus02 s
  | .status81 => Sys2Proof.Machine.execStatus81 s
  | .status82 => Sys2Proof.Machine.execStatus82 s
  | .statusDefault key => Sys2Proof.Machine.execStatusDefault key s
  | .error01 => Sys2Proof.Machine.execError01 s
  | .error02 => Sys2Proof.Machine.execError02 s
  | .error03 => Sys2Proof.Machine.execError03 s
  | .error04 => Sys2Proof.Machine.execError04 s
  | .error05 => Sys2Proof.Machine.execError05 s
  | .error06 => Sys2Proof.Machine.execError06 s
  | .errorDefault key => Sys2Proof.Machine.execErrorDefault key s
  | .vib00 => Sys2Proof.Machine.execVib00 s
  | .vib01 => Sys2Proof.Machine.execVib01 s
  | .vib02 => Sys2Proof.Machine.execVib02 s
  | .vibDefault key => Sys2Proof.Machine.execVibDefault key s
  | .ruleOff => Sys2Proof.Machine.execRuleOff s
  | .ruleOn => Sys2Proof.Machine.execRuleOn s
  | .ruleTemperature => Sys2Proof.Machine.execRuleTemperature s
  | .ruleHumidity => Sys2Proof.Machine.execRuleHumidity s
  | .ruleIlluminance => Sys2Proof.Machine.execRuleIlluminance s
  | .ruleBarometricPressure => Sys2Proof.Machine.execRuleBarometricPressure s
  | .ruleSoundNoise => Sys2Proof.Machine.execRuleSoundNoise s
  | .ruleEtvoc => Sys2Proof.Machine.execRuleEtvoc s
  | .ruleVibration => Sys2Proof.Machine.execRuleVibration s
  | .ruleDefault rule => Sys2Proof.Machine.execRuleDefault rule s
  | .frame f => Sys2Proof.Machine.execFrame f s

end Sys2Proof.Machine
end

