-- ==== Sys2Proof/Machine/Step.lean ====
section
/-! DEFINITION. One step: the oldest operation the host has issued, decoded and performed to its end (00_scope.md R18,
20_memory.md R62, R65), or the word placed at a unit's input (log entry 4). -/

namespace Sys2Proof.Machine

/-- One step of the block. -/
def step (s : State) : Host.Outcome State Fault Refusal :=
  match s.fetch with
  | none => .next s.wait
  | some (x, t) =>
    match decode x with
    | .ok i => exec i t
    | .error e => rejectWord e t

/-- The state with a word of the opcode table placed as the very next to run (log entries 1, 4 and 5). -/
def State.withFetchWord (s : State) (nbits w : Nat) : State := s.place (tableWord nbits w)

end Sys2Proof.Machine
end

