-- ==== Sys2Proof/Safety.lean ====
section
/-! DEFINITION. The invariants of the block (10_state.md R26, R30, R31) and what counts as a safe run, in the terms claims use. -/

namespace Sys2Proof.Machine

/-- The invariant of one parser between operations (10_state.md R26): (a), (b) and (d) tie EXPLEN, BUF and LASTTS, (c) ties
EXPLEN to the frame start. -/
abbrev Parser.Inv (p : Parser) : Prop :=
  (p.explen = 0 → p.buf = [] ∧ p.lastts = 0) ∧
  (p.explen ≠ 0 →
    4 ≤ p.buf.length ∧ p.buf.length < p.explen.toNat ∧
    byteAt p.buf 0 = 0x52 ∧ byteAt p.buf 1 = 0x42 ∧ p.explen.toNat = (le16 p.buf 2).toNat + 4)

/-- The texts and widths of a record's body agree with the tables and ranges they come from. -/
abbrev Body.Inv : Body → Prop
  | .errRsp code error => error = errorText code
  | .d5021 d => d.vibrationStatus = vibText d.vibrationCode
  | .d5402 _ => True
  | .d180A d =>
    d.model.length = 10 ∧ d.serialNumber.length = 10 ∧ d.firmwareVersion.length = 5 ∧
    d.hardwareVersion.length = 5 ∧ d.manufacturer.length = 5
  | .bare => True

/-- RESP: finished = 1 exactly with a record (KIND is NONE exactly when finished = 0), whose status text is the table's
(10_state.md R30, 30_encoding.md R90). -/
abbrev Resp.Inv (r : Resp) : Prop :=
  match r.record with
  | none => r.finished = false
  | some d => r.finished = true ∧ d.status = statusText d.statusCode ∧ d.body.Inv

/-- The exception outputs: all 0, or those of the newest exception of the log, with neither RESP nor a result
(10_state.md R31, 60_exceptions.md R254). -/
abbrev State.OutputsInv (s : State) : Prop :=
  (s.err = 0 ∧ s.errcause = 0 ∧ s.errinfo0 = 0 ∧ s.errinfo1 = 0) ∨
  (∃ e ∈ s.faultLog.getLast?, s.err = e.errClass ∧ s.errcause = e.causeCode ∧
    s.errinfo0 = e.infoFirst ∧ s.errinfo1 = e.infoSecond ∧ s.resp = none ∧ s.out = Output.none)

/-- The invariant of the state. -/
abbrev State.Inv (s : State) : Prop :=
  s.parsers.Pairwise (fun a b => a.1 < b.1) ∧
  (∀ e ∈ s.parsers, e.2.Inv) ∧
  (∀ r ∈ s.resp, r.Inv) ∧
  s.OutputsInv

/-- The exception that R248 asks a model to treat as a fault that no claim may pass through (42_parser.md R179,
60_exceptions.md R248, U1). 93_implementation_defined.md lists SHORT_START (V1), PayloadLengthError (V2), BuildLengthError (V3)
and INPUT_TYPE for an array with a non-byte element (V10) under `fault` too; they are not counted. DESIGN CHOICE, unsafe: log
entry 25. -/
def Exn.isOverrun : Exn → Bool
  | .overrun _ _ => true
  | .inputType => false
  | .shortStart _ => false
  | .headerMismatch _ => false
  | .crcMismatch _ _ => false
  | .unsupportedAddress _ _ => false
  | .payloadLength _ _ => false
  | .buildLength _ => false
  | .refusedOperation _ => false

/-- A safe run so far: no OverrunError was raised (60_exceptions.md R248: "a fault that no claim may pass through"). That the
premise "no fault recorded" of R255 counts this exception alone is the model's choice: log entry 25. -/
def State.safe (s : State) : Bool := s.faultLog.all (fun e => !e.isOverrun)

/-- The link an operation is issued on, if it is issued on one (60_exceptions.md R262). -/
def linkOf : Instr → Option Nat
  | .init k _ _ => some k
  | .crc16 _ => none
  | .bldReq _ => none
  | .bldRdlong => none
  | .bldRdori => none
  | .bldRdinfo => none
  | .bldWrled _ _ => none
  | .parse k _ _ => some k
  | .hostopReserved _ => none
  | .reqRd5021 => none
  | .reqRd5402 => none
  | .reqRd180A => none
  | .reqWr5111 _ _ _ _ => none
  | .decErr _ => none
  | .dec5021 _ => none
  | .dec5402 _ => none
  | .dec180A _ => none
  | .decUnsup _ => none
  | .decBare _ => none
  | .status01 => none
  | .status02 => none
  | .status81 => none
  | .status82 => none
  | .statusDefault _ => none
  | .error01 => none
  | .error02 => none
  | .error03 => none
  | .error04 => none
  | .error05 => none
  | .error06 => none
  | .errorDefault _ => none
  | .vib00 => none
  | .vib01 => none
  | .vib02 => none
  | .vibDefault _ => none
  | .ruleOff => none
  | .ruleOn => none
  | .ruleTemperature => none
  | .ruleHumidity => none
  | .ruleIlluminance => none
  | .ruleBarometricPressure => none
  | .ruleSoundNoise => none
  | .ruleEtvoc => none
  | .ruleVibration => none
  | .ruleDefault _ => none
  | .frame _ => none

/-- A state after a normal end that hands over `o`: the exception outputs are 0 (10_state.md R31, R38). -/
def State.withResult (u : State) (o : Output) : State :=
  { u with err := 0, errcause := 0, errinfo0 := 0, errinfo1 := 0, out := o }

/-- A state after a normal end that writes RESP (10_state.md R30, R31). -/
def State.withResp (u : State) (r : Resp) : State :=
  { u with err := 0, errcause := 0, errinfo0 := 0, errinfo1 := 0, out := .none, resp := some r }

/-- A state after the exception `e` was taken with class `c`, cause `k` and diagnostics `i`, `j`: neither RESP nor a result,
and one more entry of the log (60_exceptions.md R254). -/
def State.withError (u : State) (e : Exn) (c k i j : Nat) : State :=
  { u with err := c, errcause := k, errinfo0 := i, errinfo1 := j, resp := none, out := .none,
           faultLog := u.faultLog ++ [e] }

/-- The registers of a parser in IDLE, its timeout kept (70_reset_and_hazards.md R282). -/
def Parser.idled (p : Parser) : Parser := { buf := [], explen := 0, lastts := 0, ttlEn := p.ttlEn, ttl := p.ttl }

/-- In BUFFERING, with a timeout, and the elapsed time since the last chunk, an integer that may be negative (the spec's
decision D6), is at least the timeout (42_parser.md R174; that a negative one is not, with a timeout of 0 too, is the model's
choice between R174 and 10_state.md R25, log entry 26). -/
abbrev Parser.overdue (p : Parser) (now : Nat) : Prop :=
  p.explen ≠ 0 ∧ p.ttlEn = true ∧ (p.ttl : Int) ≤ (now : Int) - (p.lastts : Int)

/-- `q` is the parser `p` after the staleness check of a PARSE at `now` (42_parser.md R174). -/
abbrev AfterStaleness (p : Parser) (now : Nat) (q : Parser) : Prop :=
  (p.overdue now ∧ q = p.idled) ∨ (¬ p.overdue now ∧ q = p)

/-- Accepting `c`, the parser `q` holds the bytes `f` of a frame of `len` bytes: a frame start in IDLE, a continuation in
BUFFERING (42_parser.md R175, R176). -/
abbrev Accepts (q : Parser) (c f : Bytes) (len : Nat) : Prop :=
  (q.explen = 0 ∧ 4 ≤ c.length ∧ byteAt c 0 = 0x52 ∧ byteAt c 1 = 0x42 ∧ f = c ∧
    len = (byteAt c 2).toNat + 256 * (byteAt c 3).toNat + 4) ∨
  (q.explen ≠ 0 ∧ f = q.buf ++ c ∧ len = q.explen.toNat)

/-- The chunk is none of the three accepted forms (42_parser.md R172). -/
abbrev NotBytes (ch : ChunkOperand) : Prop :=
  ch = .other ∨
  ∃ es, (ch = .array es ∨ ch = .wrapper es) ∧
    ∃ e ∈ es, e = ArrayElem.notInteger ∨ ∃ v, e = ArrayElem.int v ∧ (v < 0 ∨ 255 < v)

/-- A hexadecimal digit, of either case (30_encoding.md R106). -/
abbrev isHexDigit (c : Char) : Prop := ('0' ≤ c ∧ c ≤ '9') ∨ ('A' ≤ c ∧ c ≤ 'F') ∨ ('a' ≤ c ∧ c ≤ 'f')

/-- The number that hexadecimal digits spell: each digit's place in the row of the sixteen, base 16 (30_encoding.md R106). -/
def hexValue (cs : List Char) : Nat := Nat.ofDigits 16 (cs.reverse.map fun c => "0123456789abcdef".toList.idxOf c.toLower)

/-- The signed reading of the 16-bit field at offset `o` (00_scope.md R14, 30_encoding.md R97). -/
def signedAt16 (p : Bytes) (o : Nat) : Int :=
  let u := (byteAt p o).toNat + 256 * (byteAt p (o + 1)).toNat
  if u < 32768 then (u : Int) else (u : Int) - 65536

/-- The signed reading of the 32-bit field at offset `o` (00_scope.md R14, 30_encoding.md R97). -/
def signedAt32 (p : Bytes) (o : Nat) : Int :=
  let u := (byteAt p o).toNat + 256 * (byteAt p (o + 1)).toNat + 65536 * (byteAt p (o + 2)).toNat +
    16777216 * (byteAt p (o + 3)).toNat
  if u < 2147483648 then (u : Int) else (u : Int) - 4294967296

/-- The host issues the chunks of one frame on one link, each with its time stamp. -/
def feedAll (k : Nat) : List (Nat × Bytes) → State → Result
  | [], s => .next s
  | (now, c) :: rest, s =>
    match exec (.parse k now (.bytes c)) s with
    | .next t => feedAll k rest t
    | .fault e => .fault e
    | .refused e => .refused e

end Sys2Proof.Machine
end

