-- ==== Sys2Proof/Certificates/Slice0/Obligations.lean ====
section
/-! DEFINITION. The statements for the provers, from the numbered rules of spec/. -/

open Sys2Proof Sys2Proof.Machine

/-! ## Words -/

/-- Every well-formed instruction is read back from its own words (30_encoding.md R80, R84 to R88, R90 to R93). -/
def Obligations.DecodeOfEncodeIsTheInstruction : Prop :=
  ∀ i : Instr, i.wellFormed = true → decode (encode i) = .ok i

/-- No bit of a word is dropped: the instruction read from a word has that word (30_encoding.md R80 to R95). -/
def Obligations.EncodeOfDecodeIsTheWord : Prop :=
  ∀ (x : Presented) (i : Instr), decode x = .ok i → (encode i).fmt = x.fmt ∧ (encode i).word = x.word

/-- The decoder answers with instructions of the table only: every operand lies in its row's range. -/
def Obligations.DecodedInstructionIsWellFormed : Prop :=
  ∀ (x : Presented) (i : Instr), decode x = .ok i → i.wellFormed = true

/-- A step runs the oldest operation the host has issued and takes it off the queue; with nothing issued the block waits
(20_memory.md R65, 70_reset_and_hazards.md R283; the queue is the model's, log entry 1). A word placed at a unit's input, which
no host operation does (43_decode.md R200), is run first and taken away, a response payload shorter than the dispatch reads
raises as DECODE does inside a PARSE, and any other word that no row stands for is refused by name: that a step meets such
words at all, with all it does on them, is the model's, log entry 4. -/
def Obligations.StepRunsThePresentedOperation : Prop :=
  (∀ (s : State) (o : HostOp) (rest : List HostOp) (i : Instr), s.unitWord = none → s.pending = o :: rest →
    decode o.word = .ok i → step s = exec i { s with pending := rest }) ∧
  (∀ s : State, s.unitWord = none → s.pending = [] → step s = .next s) ∧
  (∀ (s : State) (x : Presented) (i : Instr), s.unitWord = some x → decode x = .ok i →
    step s = exec i { s with unitWord := none }) ∧
  (∀ (s : State) (x : Presented) (n : Nat), s.unitWord = some x → decode x = .error (.responseShort n) →
    step s = .next (({ s with unitWord := none } : State).withError (.payloadLength n 3) 4 1 n 3)) ∧
  (∀ (s : State) (x : Presented) (e : DecodeError), s.unitWord = some x → decode x = .error e →
    (∀ n, e ≠ .responseShort n) → step s = .refused (.undecodable e))

/-- Each OP code selects its operation with the operands of its own lines (30_encoding.md R80, R81; the codes are the
spec's decision D2). -/
def Obligations.HostCodesSelectTheOperations : Prop :=
  ∀ l : HostLines,
    decode ⟨.hostop, [0x00], l⟩ = .ok (.init l.link l.ttlEn l.ttl) ∧
    decode ⟨.hostop, [0x01], l⟩ = .ok (.crc16 l.bytes) ∧
    decode ⟨.hostop, [0x02], l⟩ = .ok (.bldReq l.payload) ∧
    decode ⟨.hostop, [0x03], l⟩ = .ok .bldRdlong ∧
    decode ⟨.hostop, [0x04], l⟩ = .ok .bldRdori ∧
    decode ⟨.hostop, [0x05], l⟩ = .ok .bldRdinfo ∧
    decode ⟨.hostop, [0x06], l⟩ = .ok (.bldWrled l.rule l.color) ∧
    decode ⟨.hostop, [0x07], l⟩ = .ok (.parse l.link l.now l.chunk) ∧
    (∀ op : BitVec 4, 8 ≤ op.toNat → decode ⟨.hostop, [op.setWidth 8], l⟩ = .ok (.hostopReserved op))

/-- One word of each format, written out from the spec, is the instruction it stands for: PARSE, the request 01 21 50, the
payload 81 21 50 01, the keys 0x82, 0x06 and 2, the code 02 00, the frame of 41_builder.md R142. -/
def Obligations.SpecWordsDecode : Prop :=
  decode ⟨.hostop, [0x07], { now := 120, chunk := .bytes [0x52] }⟩ = .ok (.parse 0 120 (.bytes [0x52])) ∧
  decode ⟨.req, [0x01, 0x21, 0x50], {}⟩ = .ok .reqRd5021 ∧
  decode ⟨.req, [0x02, 0x11, 0x51, 0x01, 0x00, 0x0d, 0x58, 0xc1], {}⟩ = .ok (.reqWr5111 0x0001 0x0d 0x58 0xc1) ∧
  decode ⟨.rsp, [0x81, 0x21, 0x50, 0x01], {}⟩ = .ok (.decErr [0x81, 0x21, 0x50, 0x01]) ∧
  decode ⟨.rsp, [0x01, 0x11, 0x51], {}⟩ = .ok (.decUnsup [0x01, 0x11, 0x51]) ∧
  decode ⟨.tblStatus, [0x82], {}⟩ = .ok .status82 ∧
  decode ⟨.tblError, [0x06], {}⟩ = .ok .error06 ∧
  decode ⟨.tblVib, [0x02], {}⟩ = .ok .vib02 ∧
  decode ⟨.tblRule, [0x02, 0x00], {}⟩ = .ok .ruleTemperature ∧
  decode ⟨.frame, [0x52, 0x42, 0x05, 0x00, 0x01, 0x21, 0x50, 0xe2, 0x4b], {}⟩ =
    .ok (.frame [0x52, 0x42, 0x05, 0x00, 0x01, 0x21, 0x50, 0xe2, 0x4b])

/-- The arm a response payload selects: the error bit first, then the address on all 16 bits, then status 0x01
(43_decode.md R211; the order is 30_encoding.md R94, which is the spec's reading D28). -/
def Obligations.ResponseDispatchOrder : Prop :=
  ∀ p : Bytes, 3 ≤ p.length →
    (128 ≤ (byteAt p 0).toNat → decode ⟨.rsp, p, {}⟩ = .ok (.decErr p)) ∧
    ((byteAt p 0).toNat < 128 → (byteAt p 1).toNat + 256 * (byteAt p 2).toNat = 0x5021 →
      decode ⟨.rsp, p, {}⟩ = .ok (.dec5021 p)) ∧
    ((byteAt p 0).toNat < 128 → (byteAt p 1).toNat + 256 * (byteAt p 2).toNat = 0x5402 →
      decode ⟨.rsp, p, {}⟩ = .ok (.dec5402 p)) ∧
    ((byteAt p 0).toNat < 128 → (byteAt p 1).toNat + 256 * (byteAt p 2).toNat = 0x180A →
      decode ⟨.rsp, p, {}⟩ = .ok (.dec180A p)) ∧
    ((byteAt p 0).toNat < 128 → (byteAt p 1).toNat + 256 * (byteAt p 2).toNat ∉ [0x5021, 0x5402, 0x180A] →
      decode ⟨.rsp, p, {}⟩ = .ok (if (byteAt p 0).toNat = 1 then .decUnsup p else .decBare p))

/-! ## CRC -/

/-- CRC16 from the empty sequence and byte by byte: XOR into the low bits, then eight iterations of "if low bit set, shift
right and XOR the feedback constant, else shift right" (40_crc.md R121). Nothing but the outputs changes. -/
def Obligations.Crc16FollowsTheBitAlgorithm : Prop :=
  (∀ s : State, exec (.crc16 []) s = .next (s.withResult (.crc 0xFFFF))) ∧
  (∀ (bs : Bytes) (b : Byte) (s : State), ∃ c : Half,
    exec (.crc16 bs) s = .next (s.withResult (.crc c)) ∧
    exec (.crc16 (bs ++ [b])) s = .next (s.withResult (.crc
      ((fun r : Half => if r.toNat % 2 = 1 then (r >>> 1) ^^^ 0xA001 else r >>> 1)^[8] (c ^^^ b.setWidth 16)))))

/-- A sequence followed by its own checksum, low byte first, has the checksum 0 (40_crc.md R124). -/
def Obligations.Crc16ResidueIsZero : Prop :=
  ∀ (bs : Bytes) (s : State), ∃ c : Half,
    exec (.crc16 bs) s = .next (s.withResult (.crc c)) ∧
    exec (.crc16 (bs ++ [BitVec.ofNat 8 (c.toNat % 256), BitVec.ofNat 8 (c.toNat / 256)])) s =
      .next (s.withResult (.crc 0))

/-! ## The Builder -/

/-- BLD.REQ of a payload of at most 65533 bytes: header, declared length, payload, checksum, and length field + 4 bytes in
all (41_builder.md R141, 20_memory.md R63). Nothing but the outputs changes. -/
def Obligations.BuildRequestLaysOutTheFrame : Prop :=
  ∀ (payload : Bytes) (s : State), payload.length ≤ 65533 → ∃ f : Bytes,
    exec (.bldReq payload) s = .next (s.withResult (.frame f)) ∧
    f.length = payload.length + 6 ∧
    byteAt f 0 = 0x52 ∧ byteAt f 1 = 0x42 ∧
    (byteAt f 2).toNat + 256 * (byteAt f 3).toNat = payload.length + 2 ∧
    (f.drop 4).take payload.length = payload ∧
    exec (.crc16 (f.take (payload.length + 4))) s =
      .next (s.withResult (.crc (byteAt f (payload.length + 5) ++ byteAt f (payload.length + 4))))

/-- BLD.REQ of a longer payload raises BuildLengthError and touches no parser (60_exceptions.md R251, the spec's decision
D17). -/
def Obligations.BuildRequestRefusesLongPayloads : Prop :=
  ∀ (payload : Bytes) (s : State), 65533 < payload.length →
    exec (.bldReq payload) s = .next (s.withError (.buildLength payload.length) 5 1 payload.length 65533)

/-- The three fixed read requests, at OP 3, 4 and 5, are these frames, and change nothing but the outputs (41_builder.md
R142, R143, R144; the OP codes are the spec's decision D2). -/
def Obligations.FixedReadRequests : Prop :=
  (∀ l : HostLines, decode ⟨.hostop, [0x03], l⟩ = .ok .bldRdlong ∧ decode ⟨.hostop, [0x04], l⟩ = .ok .bldRdori ∧
    decode ⟨.hostop, [0x05], l⟩ = .ok .bldRdinfo) ∧
  (∀ s : State,
    exec .bldRdlong s = .next (s.withResult (.frame [0x52, 0x42, 0x05, 0x00, 0x01, 0x21, 0x50, 0xe2, 0x4b])) ∧
    exec .bldRdlong s = exec (.bldReq [0x01, 0x21, 0x50]) s ∧
    exec .bldRdori s = .next (s.withResult (.frame [0x52, 0x42, 0x05, 0x00, 0x01, 0x02, 0x54, 0xfa, 0xb8])) ∧
    exec .bldRdori s = exec (.bldReq [0x01, 0x02, 0x54]) s ∧
    exec .bldRdinfo s = .next (s.withResult (.frame [0x52, 0x42, 0x05, 0x00, 0x01, 0x0a, 0x18, 0xfc, 0x8d])) ∧
    exec .bldRdinfo s = exec (.bldReq [0x01, 0x0a, 0x18]) s)

/-- BLD.WRLED: a frame of 14 bytes with the code of the rule and, under "ON" only, the colour, most significant byte first
and truncated to 24 bits (41_builder.md R145, 30_encoding.md R85, R106). Nothing but the outputs changes. -/
def Obligations.WriteLedRequestFrame : Prop :=
  ∀ (rule : RuleOperand) (color : ColorOperand) (c : Nat) (s : State), resolveColor color = some c → ∃ f : Bytes,
    exec (.bldWrled rule color) s = .next (s.withResult (.frame f)) ∧
    f.length = 14 ∧
    f.take 9 = [0x52, 0x42, 0x0a, 0x00, 0x02, 0x11, 0x51, BitVec.ofNat 8 (ruleCode rule).toNat,
      BitVec.ofNat 8 ((ruleCode rule).toNat / 256)] ∧
    (f.drop 9).take 3 =
      (if resolveRule rule = some .on then
        [BitVec.ofNat 8 (c / 65536), BitVec.ofNat 8 (c / 256), BitVec.ofNat 8 c] else [0, 0, 0]) ∧
    exec (.crc16 (f.take 12)) s = .next (s.withResult (.crc (byteAt f 13 ++ byteAt f 12)))

/-- The display-rule codes: the nine names, every other name and no name 0x0000, the index forms 0 to 8, and 9 to 15
unrecognised; only "ON" and index 1 send a colour (30_encoding.md R93, R107; the codes 3 to 8 are the spec's decision D14). -/
def Obligations.DisplayRuleCodes : Prop :=
  ruleCode (.name "OFF") = 0 ∧ ruleCode (.name "ON") = 1 ∧ ruleCode (.name "Temperature") = 2 ∧
  ruleCode (.name "Humidity") = 3 ∧ ruleCode (.name "Illuminance") = 4 ∧ ruleCode (.name "Barometric Pressure") = 5 ∧
  ruleCode (.name "Sound Noise") = 6 ∧ ruleCode (.name "eTVOC") = 7 ∧ ruleCode (.name "Vibration") = 8 ∧
  (∀ n : String, n ∉ ["OFF", "ON", "Temperature", "Humidity", "Illuminance", "Barometric Pressure", "Sound Noise", "eTVOC",
    "Vibration"] → ruleCode (.name n) = 0) ∧
  ruleCode .absent = 0 ∧
  (∀ i : BitVec 4, (ruleCode (.index i)).toNat = if i.toNat ≤ 8 then i.toNat else 0) ∧
  (∀ r : RuleOperand, resolveRule r = some .on ↔ r = .name "ON" ∨ r = .index 1)

/-- The colour forms (30_encoding.md R106, the spec's decision D16). Accepted: an absent value and one that is neither string
nor number resolve to 0, a non-negative integer is used directly, a string of one or more hexadecimal digits of either case is
the number they spell, and one leading # makes no difference. Refused: a negative or fractional number, the empty string, a lone
#, and a string with a character that is no hexadecimal digit, a second # among them. BLD.WRLED sees the number alone and is
refused with a refused value; what it sends for an accepted one is WriteLedRequestFrame. -/
def Obligations.ColourForms : Prop :=
  resolveColor .absent = some 0 ∧
  resolveColor .neither = some 0 ∧
  (∀ n : Int, 0 ≤ n → resolveColor (.num n) = some n.toNat) ∧
  (∀ cs : List Char, cs ≠ [] → (∀ c ∈ cs, isHexDigit c) →
    resolveColor (.str (String.ofList cs)) = some (hexValue cs) ∧
    resolveColor (.str (String.ofList ('#' :: cs))) = some (hexValue cs)) ∧
  (∀ n : Int, n < 0 → resolveColor (.num n) = none) ∧
  resolveColor .fractional = none ∧
  resolveColor (.str "") = none ∧
  resolveColor (.str "#") = none ∧
  (∀ cs : List Char, (∃ c ∈ cs, ¬ isHexDigit c) →
    (cs.head? ≠ some '#' → resolveColor (.str (String.ofList cs)) = none) ∧
    resolveColor (.str (String.ofList ('#' :: cs))) = none) ∧
  (∀ (rule : RuleOperand) (a b : ColorOperand) (s : State), resolveColor a = resolveColor b →
    exec (.bldWrled rule a) s = exec (.bldWrled rule b) s) ∧
  (∀ (rule : RuleOperand) (color : ColorOperand) (s : State), resolveColor color = none →
    exec (.bldWrled rule color) s = .refused .colorUnresolved)

/-- The four pseudo-operations are BLD.REQ of their payloads (30_encoding.md R105). -/
def Obligations.PseudoOperationsExpand : Prop :=
  ∀ s : State,
    exec .bldRdlong s = exec (.bldReq [0x01, 0x21, 0x50]) s ∧
    exec .bldRdori s = exec (.bldReq [0x01, 0x02, 0x54]) s ∧
    exec .bldRdinfo s = exec (.bldReq [0x01, 0x0a, 0x18]) s ∧
    (∀ (r : RuleOperand) (color : ColorOperand) (c : Nat), resolveColor color = some c →
      exec (.bldWrled r color) s = exec (.bldReq ([0x02, 0x11, 0x51] ++ u16le (ruleCode r) ++
        (if resolveRule r = some .on then colorBytes c else [0x00, 0x00, 0x00]))) s)

/-- The request words emit the frames of the command table, and change nothing but the outputs (30_encoding.md R84, R85, R86;
by themselves at the Builder's input they are the model's, log entry 4). -/
def Obligations.RequestWordsEmitTheirFrames : Prop :=
  ∀ s : State,
    exec .reqRd5021 s = .next (s.withResult (.frame [0x52, 0x42, 0x05, 0x00, 0x01, 0x21, 0x50, 0xe2, 0x4b])) ∧
    exec .reqRd5402 s = .next (s.withResult (.frame [0x52, 0x42, 0x05, 0x00, 0x01, 0x02, 0x54, 0xfa, 0xb8])) ∧
    exec .reqRd180A s = .next (s.withResult (.frame [0x52, 0x42, 0x05, 0x00, 0x01, 0x0a, 0x18, 0xfc, 0x8d])) ∧
    (∀ (code : Half) (r g b : Byte), ∃ f : Bytes,
      exec (.reqWr5111 code r g b) s = .next (s.withResult (.frame f)) ∧
      exec (.bldReq [0x02, 0x11, 0x51, BitVec.ofNat 8 code.toNat, BitVec.ofNat 8 (code.toNat / 256), r, g, b]) s =
        .next (s.withResult (.frame f)))

/-! ## The lookup tables -/

/-- The status table: every record a decode arm produces, error or not, has the table's text of payload byte 0
(30_encoding.md R90). -/
def Obligations.StatusTable : Prop :=
  (statusString .readOk = "Read OK" ∧ statusString .writeOk = "Write OK" ∧ statusString .readError = "Read Error" ∧
    statusString .writeError = "Write Error" ∧ statusString .unknown = "Unknown") ∧
  (∀ (a : DecArm) (p : Bytes) (s t : State) (r : Resp) (d : DecodedRecord), exec (armInstr a p) s = .next t →
    t.resp = some r → r.record = some d →
    d.statusCode = byteAt p 0 ∧
    (d.statusCode = 0x01 → d.status = .readOk) ∧ (d.statusCode = 0x02 → d.status = .writeOk) ∧
    (d.statusCode = 0x81 → d.status = .readError) ∧ (d.statusCode = 0x82 → d.status = .writeError) ∧
    (d.statusCode ∉ [0x01, 0x02, 0x81, 0x82] → d.status = .unknown))

/-- The error table: six texts; an error response with any other code has no `error` and ERROR_VALID = 0, and `errorCode`
still carries the byte (30_encoding.md R91). -/
def Obligations.ErrorTable : Prop :=
  (errorString .crcError = "CRC Error" ∧ errorString .commandError = "Command Error" ∧
    errorString .addressError = "Address Error" ∧ errorString .lengthError = "Length Error" ∧
    errorString .dataError = "Data Error" ∧ errorString .busy = "Busy") ∧
  (∀ (p : Bytes) (s : State), 4 ≤ p.length → ∃ (t : State) (d : DecodedRecord) (e : Option ErrorText),
    exec (.decErr p) s = .next t ∧ t.resp = some ⟨true, some d⟩ ∧ d.body = .errRsp (byteAt p 3) e ∧
    (d.body.errorValid = true ↔ 1 ≤ (byteAt p 3).toNat ∧ (byteAt p 3).toNat ≤ 6) ∧
    ((byteAt p 3).toNat = 1 → e = some .crcError) ∧ ((byteAt p 3).toNat = 2 → e = some .commandError) ∧
    ((byteAt p 3).toNat = 3 → e = some .addressError) ∧ ((byteAt p 3).toNat = 4 → e = some .lengthError) ∧
    ((byteAt p 3).toNat = 5 → e = some .dataError) ∧ ((byteAt p 3).toNat = 6 → e = some .busy) ∧
    ((byteAt p 3).toNat = 0 ∨ 7 ≤ (byteAt p 3).toNat → e = none))

/-- The vibration-status table, keyed by payload byte 24 of the 0x5021 response (30_encoding.md R92). -/
def Obligations.VibrationTable : Prop :=
  (vibString .noVibration = "None" ∧ vibString .vibrationDetected = "Vibration Detected" ∧
    vibString .earthquakeDetected = "Earthquake Detected" ∧ vibString .unknown = "Unknown") ∧
  (∀ (p : Bytes) (s : State), 31 ≤ p.length → ∃ (t : State) (d : DecodedRecord) (x : SensorData),
    exec (.dec5021 p) s = .next t ∧ t.resp = some ⟨true, some d⟩ ∧ d.body = .d5021 x ∧
    ((byteAt p 24).toNat = 0 → x.vibrationStatus = .noVibration) ∧
    ((byteAt p 24).toNat = 1 → x.vibrationStatus = .vibrationDetected) ∧
    ((byteAt p 24).toNat = 2 → x.vibrationStatus = .earthquakeDetected) ∧
    (3 ≤ (byteAt p 24).toNat → x.vibrationStatus = .unknown))

/-- A row word of a lookup table, by itself, hands over the row's entry and changes nothing but the outputs. That
row words stand by themselves is the model's, log entry 4; the entries are those of 30_encoding.md R90 to R93, where
the rule codes 3 to 8 are the spec's decision D14. -/
def Obligations.TableRowsHandOverTheirEntries : Prop :=
  ∀ s : State,
    (exec .status01 s = .next (s.withResult (.status .readOk)) ∧
      exec .status02 s = .next (s.withResult (.status .writeOk)) ∧
      exec .status81 s = .next (s.withResult (.status .readError)) ∧
      exec .status82 s = .next (s.withResult (.status .writeError)) ∧
      (∀ k : Byte, k ∉ [0x01, 0x02, 0x81, 0x82] →
        exec (.statusDefault k) s = .next (s.withResult (.status .unknown)))) ∧
    (exec .error01 s = .next (s.withResult (.error (some .crcError))) ∧
      exec .error02 s = .next (s.withResult (.error (some .commandError))) ∧
      exec .error03 s = .next (s.withResult (.error (some .addressError))) ∧
      exec .error04 s = .next (s.withResult (.error (some .lengthError))) ∧
      exec .error05 s = .next (s.withResult (.error (some .dataError))) ∧
      exec .error06 s = .next (s.withResult (.error (some .busy))) ∧
      (∀ k : Byte, k = 0 ∨ 7 ≤ k.toNat → exec (.errorDefault k) s = .next (s.withResult (.error none)))) ∧
    (exec .vib00 s = .next (s.withResult (.vib .noVibration)) ∧
      exec .vib01 s = .next (s.withResult (.vib .vibrationDetected)) ∧
      exec .vib02 s = .next (s.withResult (.vib .earthquakeDetected)) ∧
      (∀ k : Byte, 3 ≤ k.toNat → exec (.vibDefault k) s = .next (s.withResult (.vib .unknown)))) ∧
    (exec .ruleOff s = .next (s.withResult (.code 0)) ∧
      exec .ruleOn s = .next (s.withResult (.code 1)) ∧
      exec .ruleTemperature s = .next (s.withResult (.code 2)) ∧
      exec .ruleHumidity s = .next (s.withResult (.code 3)) ∧
      exec .ruleIlluminance s = .next (s.withResult (.code 4)) ∧
      exec .ruleBarometricPressure s = .next (s.withResult (.code 5)) ∧
      exec .ruleSoundNoise s = .next (s.withResult (.code 6)) ∧
      exec .ruleEtvoc s = .next (s.withResult (.code 7)) ∧
      exec .ruleVibration s = .next (s.withResult (.code 8)) ∧
      (∀ r : RuleOperand, resolveRule r = none → exec (.ruleDefault r) s = .next (s.withResult (.code 0))))

/-! ## The decode arms -/

/-- DEC.ERR: the record of an error response, KIND 1, with no `data` (43_decode.md R204, 10_state.md R30). Nothing but the outputs changes. -/
def Obligations.ErrorResponseRecord : Prop :=
  ∀ (p : Bytes) (s : State), 4 ≤ p.length → ∃ r : Resp,
    exec (.decErr p) s = .next (s.withResp r) ∧
    r = ⟨true, some
      { statusCode := byteAt p 0, status := statusText (byteAt p 0), address := byteAt p 2 ++ byteAt p 1,
        body := .errRsp (byteAt p 3) (errorText (byteAt p 3)) }⟩ ∧
    r.kind = 1 ∧
    (Body.errRsp (byteAt p 3) (errorText (byteAt p 3))).hasData = false

/-- DEC.5021: KIND 2, every field at its offset, the 16-bit and the 32-bit ones signed (43_decode.md R205, 10_state.md R30,
30_encoding.md R89, R97). Nothing but the outputs changes. -/
def Obligations.SensorRecordFields : Prop :=
  ∀ (p : Bytes) (s : State), 31 ≤ p.length → ∃ (d : SensorData) (r : Resp),
    exec (.dec5021 p) s = .next (s.withResp r) ∧
    r = ⟨true, some
      { statusCode := byteAt p 0, status := statusText (byteAt p 0), address := byteAt p 2 ++ byteAt p 1,
        body := .d5021 d }⟩ ∧
    r.kind = 2 ∧
    d.id = byteAt p 3 ∧
    d.temperature.toInt = signedAt16 p 4 ∧
    d.humidity.toInt = signedAt16 p 6 ∧
    d.illuminance.toInt = signedAt16 p 8 ∧
    d.barometricPressure.toInt = signedAt32 p 10 ∧
    d.soundNoise.toInt = signedAt16 p 14 ∧
    d.etvoc.toInt = signedAt16 p 16 ∧
    d.eco2.toInt = signedAt16 p 18 ∧
    d.discomfortIndex.toInt = signedAt16 p 20 ∧
    d.heatStroke.toInt = signedAt16 p 22 ∧
    d.vibrationStatus = vibText (byteAt p 24) ∧
    d.vibrationCode = byteAt p 24 ∧
    d.spectralIntensity.toInt = signedAt16 p 25 ∧
    d.seismicIntensity.toInt = signedAt16 p 29

/-- The decoded values are the raw integers divided by 1, 10, 100 or 1000, exactly (30_encoding.md R89, R98, 43_decode.md
R210; exact rationals are the spec's decision D12). -/
def Obligations.SensorValuesAreExact : Prop :=
  ∀ d : SensorData,
    d.value .id = (d.id.toNat : Rat) ∧
    d.value .temperature * 100 = (d.temperature.toInt : Rat) ∧
    d.value .humidity * 100 = (d.humidity.toInt : Rat) ∧
    d.value .illuminance = (d.illuminance.toInt : Rat) ∧
    d.value .barometricPressure * 1000 = (d.barometricPressure.toInt : Rat) ∧
    d.value .soundNoise * 100 = (d.soundNoise.toInt : Rat) ∧
    d.value .etvoc = (d.etvoc.toInt : Rat) ∧
    d.value .eco2 = (d.eco2.toInt : Rat) ∧
    d.value .discomfortIndex * 100 = (d.discomfortIndex.toInt : Rat) ∧
    d.value .heatStroke * 100 = (d.heatStroke.toInt : Rat) ∧
    d.value .spectralIntensity * 10 = (d.spectralIntensity.toInt : Rat) ∧
    d.value .seismicIntensity * 1000 = (d.seismicIntensity.toInt : Rat)

/-- DEC.5402: KIND 3, the position code is byte 3, not scaled (43_decode.md R206, 10_state.md R30, 30_encoding.md R100). Nothing but the outputs
changes. -/
def Obligations.OrientationRecord : Prop :=
  ∀ (p : Bytes) (s : State), 4 ≤ p.length → ∃ r : Resp,
    exec (.dec5402 p) s = .next (s.withResp r) ∧
    r = ⟨true, some
      { statusCode := byteAt p 0, status := statusText (byteAt p 0), address := byteAt p 2 ++ byteAt p 1,
        body := .d5402 (byteAt p 3) }⟩ ∧
    r.kind = 3

/-- DEC.180A: KIND 4, the five ranges, byte for byte (30_encoding.md R101, 43_decode.md R207, 10_state.md R30). Nothing but the outputs changes. -/
def Obligations.DeviceInformationRanges : Prop :=
  ∀ (p : Bytes) (s : State), 38 ≤ p.length → ∃ r : Resp,
    exec (.dec180A p) s = .next (s.withResp r) ∧
    r = ⟨true, some
      { statusCode := byteAt p 0, status := statusText (byteAt p 0), address := byteAt p 2 ++ byteAt p 1,
        body := .d180A
          { model := (List.range 10).map (fun o => byteAt p (3 + o))
            serialNumber := (List.range 10).map (fun o => byteAt p (13 + o))
            firmwareVersion := (List.range 5).map (fun o => byteAt p (23 + o))
            hardwareVersion := (List.range 5).map (fun o => byteAt p (28 + o))
            manufacturer := (List.range 5).map (fun o => byteAt p (33 + o)) } }⟩ ∧
    r.kind = 4

/-- An ASCII range is read character by character, as many as it has bytes: a byte below 0x80 is the character of that code, nothing is trimmed or
ended early; a higher byte is the open parameter asciiHigh, a free value (30_encoding.md R99, the spec's decision D13; log
entry 18). -/
def Obligations.AsciiReading : Prop :=
  asciiText [] = [] ∧
  ∀ (a b : Bytes) (c : Byte),
    asciiText (a ++ [c] ++ b) = asciiText a ++ [if c.toNat < 128 then Char.ofNat c.toNat else Config.asciiHigh c] ++ asciiText b

/-- DEC.UNSUP always raises IllegalDataError with the address and the status (43_decode.md R208, 60_exceptions.md R247). No
parser is touched. -/
def Obligations.UnsupportedAddressRaises : Prop :=
  ∀ (p : Bytes) (s : State), 3 ≤ p.length → byteAt p 0 = 0x01 →
    exec (.decUnsup p) s = .next (s.withError (.unsupportedAddress (byteAt p 2 ++ byteAt p 1) 0x01) 2 1
      ((byteAt p 1).toNat + 256 * (byteAt p 2).toNat) 1)

/-- DEC.BARE: the bare record, KIND 5, its `data` present and empty (43_decode.md R209, 10_state.md R30). Nothing but the outputs changes. -/
def Obligations.BareRecord : Prop :=
  ∀ (p : Bytes) (s : State), 3 ≤ p.length → ∃ r : Resp,
    exec (.decBare p) s = .next (s.withResp r) ∧
    r = ⟨true, some
      { statusCode := byteAt p 0, status := statusText (byteAt p 0), address := byteAt p 2 ++ byteAt p 1, body := .bare }⟩ ∧
    r.kind = 5 ∧
    Body.bare.hasData = true

/-- A payload shorter than its arm reads raises PayloadLengthError and produces no record, not even in part (43_decode.md
R203, the spec's decision D11). -/
def Obligations.ShortPayloadsRaise : Prop :=
  ∀ (p : Bytes) (s : State),
    (p.length < 4 → exec (.decErr p) s = .next (s.withError (.payloadLength p.length 4) 4 1 p.length 4)) ∧
    (p.length < 31 → exec (.dec5021 p) s = .next (s.withError (.payloadLength p.length 31) 4 1 p.length 31)) ∧
    (p.length < 4 → exec (.dec5402 p) s = .next (s.withError (.payloadLength p.length 4) 4 1 p.length 4)) ∧
    (p.length < 38 → exec (.dec180A p) s = .next (s.withError (.payloadLength p.length 38) 4 1 p.length 38)) ∧
    (p.length < 3 → exec (.decUnsup p) s = .next (s.withError (.payloadLength p.length 3) 4 1 p.length 3)) ∧
    (p.length < 3 → exec (.decBare p) s = .next (s.withError (.payloadLength p.length 3) 4 1 p.length 3))

/-- FRAME: a whole frame with a good checksum is what its payload's arm makes of it, or PayloadLengthError below 3 payload
bytes; one with a bad checksum raises CRC_MISMATCH with the stored and the computed value; no parser is touched (42_parser.md
R180 (c) to (g), 43_decode.md R202, the length guard being the spec's decision D11; that a whole frame stands at the parser's
input by itself is the model's, log entry 4). -/
def Obligations.WholeFrameIsValidatedAndDecoded : Prop :=
  ∀ (f : Bytes) (s : State) (c : Half), 4 ≤ f.length → crc16 (f.take (f.length - 2)) = c →
    (c = byteAt f (f.length - 1) ++ byteAt f (f.length - 2) →
      (∀ i : Instr, decode ⟨.rsp, (f.take (f.length - 2)).drop 4, {}⟩ = .ok i →
        ∃ t : State, exec (.frame f) s = .next t ∧ exec i s = .next t) ∧
      (f.length < 9 → exec (.frame f) s =
        .next (s.withError (.payloadLength (f.length - 6) 3) 4 1 (f.length - 6) 3))) ∧
    (c ≠ byteAt f (f.length - 1) ++ byteAt f (f.length - 2) →
      exec (.frame f) s = .next (s.withError (.crcMismatch (byteAt f (f.length - 1) ++ byteAt f (f.length - 2)) c) 1 4
        ((byteAt f (f.length - 2)).toNat + 256 * (byteAt f (f.length - 1)).toNat) c.toNat))

/-- FRAME completes: with a good checksum, and the bytes that the arm of its status and address reads, it ends with
finished = 1 and a record of that status and address, and nothing else changes but the outputs (42_parser.md R180 (c) to (g),
43_decode.md R202 to R207, R209; that a whole frame stands at the parser's input by itself is the model's, log entry 4). -/
def Obligations.WholeFrameEndsWithItsRecord : Prop :=
  ∀ (f : Bytes) (s : State), 9 ≤ f.length →
    crc16 (f.take (f.length - 2)) = byteAt f (f.length - 1) ++ byteAt f (f.length - 2) →
    ((128 ≤ (byteAt f 4).toNat ∧ 10 ≤ f.length) ∨
      ((byteAt f 4).toNat < 128 ∧ (byteAt f 5).toNat + 256 * (byteAt f 6).toNat = 0x5021 ∧ 37 ≤ f.length) ∨
      ((byteAt f 4).toNat < 128 ∧ (byteAt f 5).toNat + 256 * (byteAt f 6).toNat = 0x5402 ∧ 10 ≤ f.length) ∨
      ((byteAt f 4).toNat < 128 ∧ (byteAt f 5).toNat + 256 * (byteAt f 6).toNat = 0x180A ∧ 44 ≤ f.length) ∨
      ((byteAt f 4).toNat < 128 ∧ (byteAt f 5).toNat + 256 * (byteAt f 6).toNat ∉ [0x5021, 0x5402, 0x180A] ∧
        byteAt f 4 ≠ 0x01)) →
    ∃ d : DecodedRecord, exec (.frame f) s = .next (s.withResp ⟨true, some d⟩) ∧
      d.statusCode = byteAt f 4 ∧ d.status = statusText (byteAt f 4) ∧ d.address = byteAt f 6 ++ byteAt f 5

/-! ## The parser -/

/-- INIT leaves a fresh parser on its link, RESP idle and the exception outputs 0; without a timeout TTL is some value that
no operation reads (42_parser.md R171, 10_state.md R37; that INIT writes RESP, and the free value, are the model's, log entries
10 and 12; that RESP and the exception outputs it writes are one set for all links is the model's too, log entry 27; INIT on a
live link is the spec's decision D27). -/
def Obligations.InitConstructsAFreshParser : Prop :=
  ∀ (s : State) (k ttl : Nat),
    exec (.init k true ttl) s =
      .next ((s.setParser k { buf := [], explen := 0, lastts := 0, ttlEn := true, ttl := ttl }).withResp ⟨false, none⟩) ∧
    (∃ v : Nat, exec (.init k false ttl) s =
      .next { (s.setParser k { buf := [], explen := 0, lastts := 0, ttlEn := false, ttl := v }).withResp ⟨false, none⟩ with
        draws := s.draws + 1 })

/-- PARSE while the frame is not complete: finished = 0, KIND = NONE, and BUF, EXPLEN, LASTTS keep what steps 3 to 5 gave
them, for a frame start and for a continuation alike (42_parser.md R178; the staleness comparison of integers is the spec's
decision D6). Everything else is as before. -/
def Obligations.ParseIncompleteFrame : Prop :=
  ∀ (s : State) (k now : Nat) (p q : Parser) (c f : Bytes) (len : Nat),
    s.parser k = some p → AfterStaleness p now q → Accepts q c f len → f.length < len →
    exec (.parse k now (.bytes c)) s =
      .next ((s.setParser k { buf := f, explen := BitVec.ofNat 17 len, lastts := now, ttlEn := p.ttlEn, ttl := p.ttl }).withResp
        ⟨false, none⟩) ∧
    Resp.kind ⟨false, none⟩ = 0

/-- PARSE that completes a frame: the parser is IDLE first; a bad checksum raises CRC_MISMATCH with the stored and the
computed value; a good one gives what the payload's arm makes of it, or PayloadLengthError below 3 bytes (42_parser.md R180,
60_exceptions.md R246; the length guard is the spec's decision D11, the staleness comparison its decision D6). Everything
else is as before. -/
def Obligations.ParseCompleteFrame : Prop :=
  ∀ (s : State) (k now : Nat) (p q : Parser) (c f : Bytes) (len : Nat) (crc : Half),
    s.parser k = some p → AfterStaleness p now q → Accepts q c f len → f.length = len → 4 ≤ len →
    exec (.crc16 (f.take (len - 2))) s = .next (s.withResult (.crc crc)) →
    (crc ≠ byteAt f (len - 1) ++ byteAt f (len - 2) →
      exec (.parse k now (.bytes c)) s =
        .next ((s.setParser k p.idled).withError (.crcMismatch (byteAt f (len - 1) ++ byteAt f (len - 2)) crc) 1 4
          ((byteAt f (len - 2)).toNat + 256 * (byteAt f (len - 1)).toNat) crc.toNat)) ∧
    (crc = byteAt f (len - 1) ++ byteAt f (len - 2) →
      (∀ i : Instr, decode ⟨.rsp, (f.take (len - 2)).drop 4, {}⟩ = .ok i →
        ∃ t : State, exec (.parse k now (.bytes c)) s = .next t ∧ exec i (s.setParser k p.idled) = .next t) ∧
      (len < 9 → exec (.parse k now (.bytes c)) s =
        .next ((s.setParser k p.idled).withError (.payloadLength (len - 6) 3) 4 1 (len - 6) 3)))

/-- PARSE with the whole of an error response in one chunk, from IDLE, ends with its record and the parser IDLE (42_parser.md
R173, R180, 43_decode.md R204). -/
def Obligations.ParseErrorResponseInOneChunk : Prop :=
  ∀ (s : State) (k now : Nat) (p : Parser) (st a0 a1 e : Byte) (crc : Half),
    s.parser k = some p → p.explen = 0 → 128 ≤ st.toNat →
    exec (.crc16 [0x52, 0x42, 0x06, 0x00, st, a0, a1, e]) s = .next (s.withResult (.crc crc)) →
    exec (.parse k now (.bytes [0x52, 0x42, 0x06, 0x00, st, a0, a1, e, BitVec.ofNat 8 crc.toNat,
        BitVec.ofNat 8 (crc.toNat / 256)])) s =
      .next ((s.setParser k p.idled).withResp ⟨true, some
        { statusCode := st, status := statusText st, address := a1 ++ a0, body := .errRsp e (errorText e) }⟩)

/-- A frame start of 4 bytes or more whose first two are not 52 42 raises HEADER_MISMATCH; the parser is IDLE with its
registers as the staleness check left them, LASTTS not updated (60_exceptions.md R245; the staleness comparison of integers
is the spec's decision D6). -/
def Obligations.HeaderMismatchRaises : Prop :=
  ∀ (s : State) (k now : Nat) (p q : Parser) (c : Bytes),
    s.parser k = some p → AfterStaleness p now q → q.explen = 0 → 4 ≤ c.length →
    ¬ (byteAt c 0 = 0x52 ∧ byteAt c 1 = 0x42) →
    exec (.parse k now (.bytes c)) s =
      .next ((s.setParser k q).withError (.headerMismatch (byteAt c 1 ++ byteAt c 0)) 1 3
        ((byteAt c 0).toNat + 256 * (byteAt c 1).toNat) 0x4252)

/-- A frame start of fewer than 4 bytes raises SHORT_START, whatever its content (60_exceptions.md R244, the spec's decision
D9). -/
def Obligations.ShortStartRaises : Prop :=
  ∀ (s : State) (k now : Nat) (p q : Parser) (c : Bytes),
    s.parser k = some p → AfterStaleness p now q → q.explen = 0 → c.length < 4 →
    exec (.parse k now (.bytes c)) s =
      .next ((s.setParser k q).withError (.shortStart c.length) 1 2 c.length 4)

/-- More bytes than the frame declares: the parser is reset to IDLE and OverrunError raised with the two lengths, and the run
is no longer safe (42_parser.md R179, 60_exceptions.md R248). The reset and the class are the spec's own choice (decision D10:
"a guess"), and the log that marks the run is the model's (log entries 7 and 8). -/
def Obligations.OverrunRaises : Prop :=
  ∀ (s : State) (k now : Nat) (p q : Parser) (c f : Bytes) (len : Nat),
    s.parser k = some p → AfterStaleness p now q → Accepts q c f len → len < f.length →
    exec (.parse k now (.bytes c)) s =
      .next ((s.setParser k p.idled).withError (.overrun f.length len) 3 1 f.length len) ∧
    ((s.setParser k p.idled).withError (.overrun f.length len) 3 1 f.length len).safe = false

/-- What is none of the accepted chunk forms raises INPUT_TYPE before anything is read or written: no parser changes
(60_exceptions.md R243; that an array with an element outside 0 to 255 is none of them is the spec's decision D25). -/
def Obligations.InputTypeRaises : Prop :=
  ∀ (s : State) (k now : Nat) (p : Parser) (ch : ChunkOperand), s.parser k = some p → NotBytes ch →
    exec (.parse k now ch) s = .next (s.withError .inputType 1 1 0 0)

/-- An array of byte values, and the interchange wrapper of one, are parsed as the bytes they hold (42_parser.md R172; that the
wrapper is taken as the array it wraps is the model's, log entry 17). -/
def Obligations.ChunkFormsAgree : Prop :=
  ∀ (s : State) (k now : Nat) (bs : Bytes),
    exec (.parse k now (.array (bs.map fun b => ArrayElem.int b.toNat))) s = exec (.parse k now (.bytes bs)) s ∧
    exec (.parse k now (.wrapper (bs.map fun b => ArrayElem.int b.toNat))) s = exec (.parse k now (.bytes bs)) s

/-- PARSE on a link whose parser was never constructed has no step (70_reset_and_hazards.md R281; that the model stops with
this fault is its own, log entry 6). -/
def Obligations.ParseNeedsAConstructedParser : Prop :=
  ∀ (s : State) (k now : Nat) (ch : ChunkOperand), s.parser k = none →
    exec (.parse k now ch) s = .fault (.unconstructed k)

/-- A chunk that arrives a timeout or more after its predecessor is processed as if the parser had been IDLE: as a frame
start, never as a continuation (42_parser.md R174; that a time before the predecessor's is not overdue, with a timeout of 0
too, is the model's choice, log entry 26). -/
def Obligations.StalenessDiscardsThePartialFrame : Prop :=
  ∀ (s : State) (k now : Nat) (p : Parser) (c : Bytes), s.parser k = some p → p.overdue now →
    exec (.parse k now (.bytes c)) s = exec (.parse k now (.bytes c)) (s.setParser k p.idled)

/-- A frame whose declared length is 0 or 1 never decodes: it ends in CRC_MISMATCH (42_parser.md R183). -/
def Obligations.DeclaredLengthBelowTwoFailsTheChecksum : Prop :=
  ∀ (s : State) (k now : Nat) (p q : Parser) (c : Bytes),
    s.parser k = some p → AfterStaleness p now q → q.explen = 0 →
    byteAt c 0 = 0x52 → byteAt c 1 = 0x42 → (byteAt c 2).toNat ≤ 1 → byteAt c 3 = 0 →
    c.length = (byteAt c 2).toNat + 4 →
    ∃ stored computed : Half, stored ≠ computed ∧
      exec (.parse k now (.bytes c)) s =
        .next ((s.setParser k p.idled).withError (.crcMismatch stored computed) 1 4 stored.toNat computed.toNat)

/-- A frame the Builder makes passes the parser's header, length and checksum tests whole, and its payload is decoded
(41_builder.md R141, 42_parser.md R180, R186); that a payload of fewer than 3 bytes then raises PayloadLengthError is the spec's
decision D11 (43_decode.md R203; log entry 24). -/
def Obligations.BuiltFramesPassTheParser : Prop :=
  ∀ (s : State) (k now : Nat) (p : Parser) (payload : Bytes),
    s.parser k = some p → p.explen = 0 → payload.length ≤ 65533 →
    ∃ f : Bytes, exec (.bldReq payload) s = .next (s.withResult (.frame f)) ∧
      (∀ i : Instr, decode ⟨.rsp, payload, {}⟩ = .ok i →
        ∃ t : State, exec (.parse k now (.bytes f)) s = .next t ∧ exec i (s.setParser k p.idled) = .next t) ∧
      (payload.length < 3 → exec (.parse k now (.bytes f)) s =
        .next ((s.setParser k p.idled).withError (.payloadLength payload.length 3) 4 1 payload.length 3))

/-- Fragmentation invariance, as corrected: a frame fed in chunks, the first of at least 4 bytes and no later one after the
timeout, gives finished = 0 on all but the last chunk, and on the last chunk the state that feeding it whole at once gives
(42_parser.md R185, 90_conflicts.md C2). Empty later chunks are allowed, the last one excepted. A chunk whose time
stands before its predecessor's is not after the timeout, with a timeout of 0 too (D6; the model's choice, log entry 26). -/
def Obligations.FragmentationInvariance : Prop :=
  ∀ (s : State) (k t0 tn : Nat) (p : Parser) (c0 : Bytes) (mid : List (Nat × Bytes)) (cn : Bytes),
    s.parser k = some p → p.explen = 0 → 4 ≤ c0.length → cn ≠ [] →
    byteAt c0 0 = 0x52 → byteAt c0 1 = 0x42 →
    (c0 ++ (mid.map Prod.snd).flatten ++ cn).length = (byteAt c0 2).toNat + 256 * (byteAt c0 3).toNat + 4 →
    (p.ttlEn = true → ((t0 :: mid.map Prod.fst) ++ [tn]).IsChain (fun a b : Nat => (b : Int) - (a : Int) < (p.ttl : Int))) →
    (∀ n : Nat, ∃ u : State, feedAll k ((t0, c0) :: mid.take n) s = .next u ∧ u.resp = some ⟨false, none⟩) ∧
    (∃ u : State, feedAll k ((t0, c0) :: mid) s = .next u ∧
      exec (.parse k tn (.bytes cn)) u =
        exec (.parse k tn (.bytes (c0 ++ (mid.map Prod.snd).flatten ++ cn))) s)

/-! ## The whole machine -/

/-- Every step keeps the relations between the registers of the parsers (10_state.md R26) and within RESP (R30), and those of
the exception outputs: all 0, or those of the newest exception with neither RESP nor a result (R31, 60_exceptions.md R254).
The model's own in it: that links rise strictly (log entry 2), the newest entry of the log beside the block (log entry 8), the
result port (log entry 11), and that ERRCAUSE, ERRINFO0 and ERRINFO1 are 0 after a normal end, of which R31 says ERR = 0 alone
(log entry 9, DEDUCED). -/
def Obligations.StepKeepsTheInvariant : Prop :=
  ∀ s t : State, s.Inv → step s = .next t → t.Inv

/-- The state after reset meets the invariant (10_state.md R26, R37). -/
def Obligations.ResetMeetsTheInvariant : Prop := State.reset.Inv

/-- After reset the parser is IDLE with BUF empty, EXPLEN and LASTTS 0; RESP has finished = 0 and KIND = NONE; the exception
outputs are 0 (10_state.md R37). That link 0 is the constructed one is the model's choice, log entry 3. -/
def Obligations.ResetValues : Prop :=
  ∃ p : Parser, State.reset.parser 0 = some p ∧ p.pstate = .idle ∧ p.buf = [] ∧ p.buflen = 0 ∧ p.explen = 0 ∧ p.lastts = 0 ∧
    (∃ r : Resp, State.reset.resp = some r ∧ r.finished = false ∧ r.kind = 0) ∧
    State.reset.err = 0 ∧ State.reset.errcause = 0 ∧ State.reset.errinfo0 = 0 ∧ State.reset.errinfo1 = 0

/-- Only INIT and PARSE write a parser; CRC, the Builder and the decoder hold and touch no state of it (10_state.md R36, R38). -/
def Obligations.OnlyInitAndParseWriteParsers : Prop :=
  ∀ (i : Instr) (s t : State), exec i s = .next t →
    (∀ (k : Nat) (e : Bool) (ttl : Nat), i ≠ .init k e ttl) → (∀ (k now : Nat) (ch : ChunkOperand), i ≠ .parse k now ch) →
    t.parsers = s.parsers ∧ t.draws = s.draws

/-- No operation reaches the parser of another link (10_state.md R40, 20_memory.md R52). -/
def Obligations.OtherLinksAreUntouched : Prop :=
  ∀ (i : Instr) (s t : State) (j : Nat), exec i s = .next t → linkOf i ≠ some j → t.parser j = s.parser j

/-- TTL_EN and TTL are immutable after INIT: no other operation writes them (10_state.md R25, 20_memory.md R69). -/
def Obligations.TimeoutIsImmutable : Prop :=
  ∀ (i : Instr) (s t : State) (k : Nat) (p : Parser), exec i s = .next t → s.parser k = some p →
    (∀ (e : Bool) (ttl : Nat), i ≠ .init k e ttl) →
    ∃ q : Parser, t.parser k = some q ∧ q.ttlEn = p.ttlEn ∧ q.ttl = p.ttl

/-- What a PARSE answers, and what it leaves in its parser, depends on that parser and on nothing else of the state
(60_exceptions.md R262, 10_state.md R35). -/
def Obligations.ParseSeesOnlyItsOwnParser : Prop :=
  ∀ (s₁ s₂ t₁ t₂ : State) (k now : Nat) (ch : ChunkOperand), s₁.parser k = s₂.parser k →
    exec (.parse k now ch) s₁ = .next t₁ → exec (.parse k now ch) s₂ = .next t₂ →
    t₁.parser k = t₂.parser k ∧ t₁.resp = t₂.resp ∧ t₁.err = t₂.err ∧ t₁.errcause = t₂.errcause ∧
    t₁.errinfo0 = t₂.errinfo0 ∧ t₁.errinfo1 = t₂.errinfo1 ∧ t₁.out = t₂.out

/-- An operation that raises leaves every parser untouched, or its own parser in IDLE with an empty buffer; RESP has no value
(60_exceptions.md R254). -/
def Obligations.ExceptionsLeaveParsersUntouchedOrIdle : Prop :=
  ∀ (i : Instr) (s t : State), s.Inv → exec i s = .next t → t.err ≠ 0 →
    t.resp = none ∧ t.out = .none ∧
    (t.parsers = s.parsers ∨
      ∃ (k : Nat) (q : Parser), linkOf i = some k ∧ t.parser k = some q ∧ q.explen = 0 ∧ q.buf = [] ∧ q.lastts = 0)

/-- Every operation completes, with two exceptions: PARSE on a link that was never constructed, and BLD.WRLED with a colour
the resolution refuses (70_reset_and_hazards.md R281, 30_encoding.md R106). -/
def Obligations.EveryOtherOperationCompletes : Prop :=
  ∀ (i : Instr) (s : State),
    (∃ t : State, exec i s = .next t) ∨
    (∃ (k now : Nat) (ch : ChunkOperand), i = .parse k now ch ∧ s.parser k = none) ∨
    (∃ (r : RuleOperand) (c : ColorOperand), i = .bldWrled r c ∧ resolveColor c = none)

/-- An operation ends normally with ERR = 0 and the log as it was, or raises exactly one exception, which is the log's newest
entry and gives ERR and ERRCAUSE (10_state.md R31, 60_exceptions.md R253, R255). The model's own in it: the log (log entry 8),
and that ERRCAUSE, ERRINFO0 and ERRINFO1 are 0 after a normal end, of which R31 says ERR = 0 alone (log entry 9, DEDUCED). -/
def Obligations.AtMostOneExceptionPerOperation : Prop :=
  ∀ (i : Instr) (s t : State), exec i s = .next t →
    (t.err = 0 ∧ t.errcause = 0 ∧ t.errinfo0 = 0 ∧ t.errinfo1 = 0 ∧ t.faultLog = s.faultLog) ∨
    (∃ e : Exn, t.faultLog = s.faultLog ++ [e] ∧ t.err = e.errClass ∧ t.errcause = e.causeCode ∧ 1 ≤ t.err ∧ t.err ≤ 6 ∧
      1 ≤ t.errcause ∧ t.errcause ≤ 4)

/-- After a PARSE the parser is in BUFFERING exactly when the call answered finished = 0, and in IDLE after every other
outcome of a byte sequence (42_parser.md R181). -/
def Obligations.BufferingExactlyAfterIncomplete : Prop :=
  ∀ (s t : State) (k now : Nat) (c : Bytes), s.Inv → exec (.parse k now (.bytes c)) s = .next t →
    ∃ q : Parser, t.parser k = some q ∧ (q.pstate = .buffering ↔ t.resp = some ⟨false, none⟩)

/-- A reserved OP code raises RefusedOperation and touches no parser (60_exceptions.md R252, the spec's decision D2). -/
def Obligations.ReservedCodesRaise : Prop :=
  ∀ (op : BitVec 4) (s : State), 8 ≤ op.toNat →
    exec (.hostopReserved op) s = .next (s.withError (.refusedOperation op) 6 1 op.toNat 0)

/-- The host reaches the decoder through PARSE alone: no step puts a word at a unit's input, none stands there at reset, what the
host issues is run as the host operation of its code and lines, and no host operation but PARSE (OP 7) leaves a record in RESP
that was not there before (43_decode.md R200, 10_state.md R38, 30_encoding.md R80). The unit word that this rules out of every
run is the model's, log entry 4, the codes are the spec's decision D2. -/
def Obligations.HostReachesTheDecoderThroughParseAlone : Prop :=
  State.reset.unitWord = none ∧
  (∀ s t : State, s.unitWord = none → step s = .next t → t.unitWord = none) ∧
  (∀ (s : State) (o : HostOp) (rest : List HostOp), s.unitWord = none → s.pending = o :: rest →
    step s = exec (decodeHostop o.op o.lines) { s with pending := rest }) ∧
  (∀ (s t : State) (o : HostOp) (rest : List HostOp), s.unitWord = none → s.pending = o :: rest → o.op ≠ 7 →
    step s = .next t → t.resp = s.resp ∨ t.resp = none ∨ t.resp = some ⟨false, none⟩)
end

