-- ==== Sys2Proof/Laws/Operands.lean ====
section
/-! SUPPORT. What field assembly, slices and the operand resolutions do. -/

namespace Sys2Proof.Machine

theorem le16_toNat (s : Bytes) (o : Nat) : (le16 s o).toNat = (byteAt s o).toNat + 256 * (byteAt s (o + 1)).toNat := by
  have h0 := (byteAt s o).isLt
  simp only [le16, BitVec.toNat_append]
  rw [← Nat.shiftLeft_add_eq_or_of_lt (by omega), Nat.shiftLeft_eq]; omega

theorem le32_toNat (s : Bytes) (o : Nat) :
    (le32 s o).toNat = (byteAt s o).toNat + 256 * (byteAt s (o + 1)).toNat + 65536 * (byteAt s (o + 2)).toNat
      + 16777216 * (byteAt s (o + 3)).toNat := by
  have h0 := (byteAt s o).isLt
  have h1 := (byteAt s (o + 1)).isLt
  have h2 := (byteAt s (o + 2)).isLt
  simp only [le32, BitVec.toNat_append]
  rw [← Nat.shiftLeft_add_eq_or_of_lt (by omega), ← Nat.shiftLeft_add_eq_or_of_lt (by omega),
    ← Nat.shiftLeft_add_eq_or_of_lt (by omega)]
  simp only [Nat.shiftLeft_eq]; omega

@[simp] theorem u16le_length (v : Half) : (u16le v).length = 2 := rfl

theorem u16le_low (v : Half) : ((u16le v).getD 0 0).toNat = v.toNat % 256 := by
  simp [u16le, BitVec.extractLsb'_toNat]

theorem u16le_high (v : Half) : ((u16le v).getD 1 0).toNat = v.toNat / 256 := by
  have := v.isLt
  simp [u16le, BitVec.extractLsb'_toNat, Nat.shiftRight_eq_div_pow]; omega

/-- Writing a value little-endian and reading it back gives the value (00_scope.md R14). -/
theorem le16_u16le (v : Half) : le16 (u16le v) 0 = v := by
  apply BitVec.eq_of_toNat_eq
  rw [le16_toNat]
  have h0 := u16le_low v
  have h1 := u16le_high v
  simp only [byteAt] at *
  rw [h0, h1]; omega

/-- The two bytes at an offset, written back little-endian, are those bytes. -/
theorem u16le_le16 (s : Bytes) (o : Nat) : u16le (le16 s o) = [byteAt s o, byteAt s (o + 1)] := by
  have h0 := (byteAt s o).isLt
  have h1 := (byteAt s (o + 1)).isLt
  simp only [u16le, List.cons.injEq, and_true]
  constructor <;> apply BitVec.eq_of_toNat_eq <;>
    simp only [BitVec.extractLsb'_toNat, le16_toNat, Nat.shiftRight_eq_div_pow] <;> omega

@[simp] theorem byteAt_nil (o : Nat) : byteAt [] o = 0 := by simp [byteAt]

@[simp] theorem byteAt_cons_zero (b : Byte) (s : Bytes) : byteAt (b :: s) 0 = b := rfl

@[simp] theorem byteAt_cons_succ (b : Byte) (s : Bytes) (o : Nat) : byteAt (b :: s) (o + 1) = byteAt s o := rfl

theorem byteAt_append_left {s t : Bytes} {o : Nat} (h : o < s.length) : byteAt (s ++ t) o = byteAt s o := by
  simp [byteAt, List.getD_eq_getElem?_getD, List.getElem?_append_left h]

theorem byteAt_append_right {s t : Bytes} {o : Nat} (h : s.length ≤ o) : byteAt (s ++ t) o = byteAt t (o - s.length) := by
  simp [byteAt, List.getD_eq_getElem?_getD, List.getElem?_append_right h]

theorem le16_append_left {s t : Bytes} {o : Nat} (h : o + 1 < s.length) : le16 (s ++ t) o = le16 s o := by
  rw [le16, le16, byteAt_append_left h, byteAt_append_left (by omega)]

theorem le16_append_right {s t : Bytes} {o : Nat} (h : s.length ≤ o) : le16 (s ++ t) o = le16 t (o - s.length) := by
  rw [le16, le16, byteAt_append_right h, byteAt_append_right (by omega), Nat.sub_add_comm h]

/-- The bytes of a slice inside the sequence are as many as its offsets (00_scope.md R13). -/
theorem slice_length {s : Bytes} {a b : Nat} (h : b ≤ s.length) : (slice s a b).length = b - a := by
  simp [slice]; omega

/-- The byte at an offset of a slice (20_memory.md R51 is the case a = 4). -/
theorem byteAt_slice {s : Bytes} {a b o : Nat} (h : a + o < b) : byteAt (slice s a b) o = byteAt s (a + o) := by
  simp [byteAt, slice, List.getD_eq_getElem?_getD, h]

theorem headerGood_iff (s : Bytes) : headerGood s = true ↔ byteAt s 0 = 0x52 ∧ byteAt s 1 = 0x42 := by
  simp [headerGood, Config.headerB0, Config.headerB1]

theorem headerGood_append_left {s t : Bytes} (h : 2 ≤ s.length) : headerGood (s ++ t) = headerGood s := by
  rw [headerGood, headerGood, byteAt_append_left (by omega), byteAt_append_left (by omega)]

/-- The expected length of a frame start is the declared length plus 4, with no wrap (42_parser.md R175). -/
theorem expected_toNat (v : Half) : (v.setWidth 17 + 4 : BitVec 17).toNat = v.toNat + 4 := by
  have := v.isLt
  simp [BitVec.toNat_add, BitVec.toNat_setWidth]; omega

/-- The dispatch with its constants written out (30_encoding.md R94). -/
theorem dispatch_eq (p : Bytes) :
    dispatch p =
      if byteAt p 0 &&& 0x80 ≠ 0 then .err
      else if le16 p 1 = 0x5021 then .d5021
      else if le16 p 1 = 0x5402 then .d5402
      else if le16 p 1 = 0x180A then .d180A
      else if byteAt p 0 = 0x01 then .unsup
      else .bare := rfl

theorem statusText_unknown {k : Byte} (h : statusText k = .unknown) : k ≠ 0x01 ∧ k ≠ 0x02 ∧ k ≠ 0x81 ∧ k ≠ 0x82 := by
  refine ⟨?_, ?_, ?_, ?_⟩ <;> rintro rfl <;> exact absurd h (by decide)

theorem errorText_none {k : Byte} (h : errorText k = none) :
    k ≠ 0x01 ∧ k ≠ 0x02 ∧ k ≠ 0x03 ∧ k ≠ 0x04 ∧ k ≠ 0x05 ∧ k ≠ 0x06 := by
  refine ⟨?_, ?_, ?_, ?_, ?_, ?_⟩ <;> rintro rfl <;> exact absurd h (by decide)

theorem vibText_unknown {k : Byte} (h : vibText k = .unknown) : k ≠ 0x00 ∧ k ≠ 0x01 ∧ k ≠ 0x02 := by
  refine ⟨?_, ?_, ?_⟩ <;> rintro rfl <;> exact absurd h (by decide)

/-- An operand that names no rule has OFF's code (30_encoding.md R93). -/
theorem ruleCode_unrecognised {r : RuleOperand} (h : resolveRule r = none) : ruleCode r = 0x0000 := by
  rw [ruleCode, h]

theorem ruleCode_recognised {r : RuleOperand} {d : DisplayRule} (h : resolveRule r = some d) :
    ruleCode r = displayRuleCode d := by
  rw [ruleCode, h]

end Sys2Proof.Machine
end

