-- ==== Sys2Proof/Laws/Builder.lean ====
section
/-! SUPPORT. The layout of a frame the Builder makes (41_builder.md R141). -/

namespace Sys2Proof.Machine

theorem frameHead_length (p : Bytes) : (frameHead p).length = p.length + 4 := by
  simp [frameHead]; omega

theorem wrap_length (p : Bytes) : (wrap p).length = p.length + 6 := by
  simp [wrap, frameHead]; omega

/-- The bytes the checksum covers are the frame without its last two. -/
theorem wrap_take (p : Bytes) : (wrap p).take (p.length + 4) = frameHead p := by
  rw [wrap, List.take_append_of_le_length (by rw [frameHead_length]), List.take_of_length_le (by rw [frameHead_length])]

theorem wrap_payload (p : Bytes) : ((wrap p).drop 4).take p.length = p := by
  simp [wrap, frameHead, u16le]

/-- The last two bytes of a frame are its checksum, the low byte first. -/
theorem wrap_stored (p : Bytes) : le16 (wrap p) (p.length + 4) = crc16 (frameHead p) := by
  rw [wrap, le16_append_right (by rw [frameHead_length]), frameHead_length, Nat.sub_self, le16_u16le]

/-- The declared length of a frame. -/
theorem wrap_declared {p : Bytes} (h : p.length ≤ 65533) : (le16 (wrap p) 2).toNat = p.length + 2 := by
  have h2 : le16 (wrap p) 2 = BitVec.ofNat 16 (p.length + 2) := le16_u16le (BitVec.ofNat 16 (p.length + 2))
  rw [h2]; simp; omega

theorem buildRequest_of_le {p : Bytes} (h : p.length ≤ 65533) : buildRequest p = .ok (.frame (wrap p)) := by
  rw [buildRequest, if_neg (by simp [Config.payloadMax]; omega)]

theorem buildRequest_of_lt {p : Bytes} (h : 65533 < p.length) : buildRequest p = .error (.buildLength p.length) := by
  rw [buildRequest, if_pos (by simpa [Config.payloadMax] using h)]

end Sys2Proof.Machine
end

