-- ==== Sys2Proof/Laws/Crc.lean ====
section
/-! SUPPORT. The laws of the checksum's steps (40_crc.md R122, R124). -/

namespace Sys2Proof.Machine

@[simp] theorem crcRun_nil (r : Half) : crcRun r [] = r := rfl

@[simp] theorem crcRun_cons (r : Half) (b : Byte) (bs : Bytes) : crcRun r (b :: bs) = crcRun (crcByte r b) bs := rfl

/-- The register is updated byte by byte from left to right. -/
theorem crcRun_append (r : Half) (a b : Bytes) : crcRun r (a ++ b) = crcRun (crcRun r a) b := by
  simp [crcRun, List.foldl_append]

theorem crcBits_succ (n : Nat) (r : Half) : crcBits (n + 1) r = crcBits n (crcBit r) := rfl

/-- An iteration on a register whose low bit is clear only shifts. -/
theorem crcBit_of_even {r : Half} (h : r.toNat % 2 = 0) : (crcBit r).toNat = r.toNat / 2 := by
  have hb : r.getLsbD 0 = false := by
    rw [BitVec.getLsbD, Nat.testBit_zero]; simp [h]
  rw [crcBit, hb]; simp [Nat.shiftRight_eq_div_pow]

/-- `n` iterations on a register whose low `n` bits are clear only shift. -/
theorem crcBits_of_low_zero (n : Nat) : ∀ r : Half, r.toNat % 2 ^ n = 0 → (crcBits n r).toNat = r.toNat / 2 ^ n := by
  induction n with
  | zero => intro r _; simp [crcBits]
  | succ n ih =>
    intro r h
    have h2 : r.toNat % 2 = 0 := by
      have := Nat.mod_mod_of_dvd r.toNat (Dvd.intro_left (2 ^ n) (Nat.pow_succ (n := 2) (m := n)).symm)
      rw [h] at this; simpa using this.symm
    have hb := crcBit_of_even h2
    have hn : (crcBit r).toNat % 2 ^ n = 0 := by
      rw [hb]
      obtain ⟨q, hq⟩ := Nat.dvd_of_mod_eq_zero h
      rw [hq, Nat.pow_succ, Nat.mul_comm (2 ^ n) 2, Nat.mul_assoc, Nat.mul_div_cancel_left _ (by decide), Nat.mul_mod_right]
    rw [crcBits_succ, ih _ hn, hb, Nat.div_div_eq_div_mul, Nat.pow_succ, Nat.mul_comm 2]

end Sys2Proof.Machine
end

