-- ==== Sys2Proof/Laws/State.lean ====
section
/-! SUPPORT. One lemma per field per update of State and of Parser, so that no later proof unfolds a record update. -/

namespace Sys2Proof.Machine

@[simp] theorem State.finish_pending (s : State) (o : Output) : (s.finish o).pending = s.pending := rfl
@[simp] theorem State.finish_unitWord (s : State) (o : Output) : (s.finish o).unitWord = s.unitWord := rfl
@[simp] theorem State.finish_parsers (s : State) (o : Output) : (s.finish o).parsers = s.parsers := rfl
@[simp] theorem State.finish_resp (s : State) (o : Output) : (s.finish o).resp = s.resp := rfl
@[simp] theorem State.finish_err (s : State) (o : Output) : (s.finish o).err = 0 := rfl
@[simp] theorem State.finish_errcause (s : State) (o : Output) : (s.finish o).errcause = 0 := rfl
@[simp] theorem State.finish_errinfo0 (s : State) (o : Output) : (s.finish o).errinfo0 = 0 := rfl
@[simp] theorem State.finish_errinfo1 (s : State) (o : Output) : (s.finish o).errinfo1 = 0 := rfl
@[simp] theorem State.finish_out (s : State) (o : Output) : (s.finish o).out = o := rfl
@[simp] theorem State.finish_faultLog (s : State) (o : Output) : (s.finish o).faultLog = s.faultLog := rfl
@[simp] theorem State.finish_draws (s : State) (o : Output) : (s.finish o).draws = s.draws := rfl

@[simp] theorem State.respond_pending (s : State) (r : Resp) : (s.respond r).pending = s.pending := rfl
@[simp] theorem State.respond_unitWord (s : State) (r : Resp) : (s.respond r).unitWord = s.unitWord := rfl
@[simp] theorem State.respond_parsers (s : State) (r : Resp) : (s.respond r).parsers = s.parsers := rfl
@[simp] theorem State.respond_resp (s : State) (r : Resp) : (s.respond r).resp = some r := rfl
@[simp] theorem State.respond_err (s : State) (r : Resp) : (s.respond r).err = 0 := rfl
@[simp] theorem State.respond_errcause (s : State) (r : Resp) : (s.respond r).errcause = 0 := rfl
@[simp] theorem State.respond_errinfo0 (s : State) (r : Resp) : (s.respond r).errinfo0 = 0 := rfl
@[simp] theorem State.respond_errinfo1 (s : State) (r : Resp) : (s.respond r).errinfo1 = 0 := rfl
@[simp] theorem State.respond_out (s : State) (r : Resp) : (s.respond r).out = Output.none := rfl
@[simp] theorem State.respond_faultLog (s : State) (r : Resp) : (s.respond r).faultLog = s.faultLog := rfl
@[simp] theorem State.respond_draws (s : State) (r : Resp) : (s.respond r).draws = s.draws := rfl

@[simp] theorem State.raise_pending (s : State) (e : Exn) : (s.raise e).pending = s.pending := rfl
@[simp] theorem State.raise_unitWord (s : State) (e : Exn) : (s.raise e).unitWord = s.unitWord := rfl
@[simp] theorem State.raise_parsers (s : State) (e : Exn) : (s.raise e).parsers = s.parsers := rfl
@[simp] theorem State.raise_resp (s : State) (e : Exn) : (s.raise e).resp = none := rfl
@[simp] theorem State.raise_err (s : State) (e : Exn) : (s.raise e).err = e.errClass := rfl
@[simp] theorem State.raise_errcause (s : State) (e : Exn) : (s.raise e).errcause = e.causeCode := rfl
@[simp] theorem State.raise_errinfo0 (s : State) (e : Exn) : (s.raise e).errinfo0 = e.infoFirst := rfl
@[simp] theorem State.raise_errinfo1 (s : State) (e : Exn) : (s.raise e).errinfo1 = e.infoSecond := rfl
@[simp] theorem State.raise_out (s : State) (e : Exn) : (s.raise e).out = Output.none := rfl
@[simp] theorem State.raise_faultLog (s : State) (e : Exn) : (s.raise e).faultLog = s.faultLog ++ [e] := rfl
@[simp] theorem State.raise_draws (s : State) (e : Exn) : (s.raise e).draws = s.draws := rfl

@[simp] theorem State.setParser_pending (s : State) (k : Nat) (p : Parser) : (s.setParser k p).pending = s.pending := rfl
@[simp] theorem State.setParser_unitWord (s : State) (k : Nat) (p : Parser) : (s.setParser k p).unitWord = s.unitWord := rfl
@[simp] theorem State.setParser_parsers (s : State) (k : Nat) (p : Parser) : (s.setParser k p).parsers = putParser s.parsers k p := rfl
@[simp] theorem State.setParser_resp (s : State) (k : Nat) (p : Parser) : (s.setParser k p).resp = s.resp := rfl
@[simp] theorem State.setParser_err (s : State) (k : Nat) (p : Parser) : (s.setParser k p).err = s.err := rfl
@[simp] theorem State.setParser_errcause (s : State) (k : Nat) (p : Parser) : (s.setParser k p).errcause = s.errcause := rfl
@[simp] theorem State.setParser_errinfo0 (s : State) (k : Nat) (p : Parser) : (s.setParser k p).errinfo0 = s.errinfo0 := rfl
@[simp] theorem State.setParser_errinfo1 (s : State) (k : Nat) (p : Parser) : (s.setParser k p).errinfo1 = s.errinfo1 := rfl
@[simp] theorem State.setParser_out (s : State) (k : Nat) (p : Parser) : (s.setParser k p).out = s.out := rfl
@[simp] theorem State.setParser_faultLog (s : State) (k : Nat) (p : Parser) : (s.setParser k p).faultLog = s.faultLog := rfl
@[simp] theorem State.setParser_draws (s : State) (k : Nat) (p : Parser) : (s.setParser k p).draws = s.draws := rfl

@[simp] theorem Parser.clear_buf (p : Parser) : (p.clear).buf = [] := rfl
@[simp] theorem Parser.clear_explen (p : Parser) : (p.clear).explen = 0 := rfl
@[simp] theorem Parser.clear_lastts (p : Parser) : (p.clear).lastts = 0 := rfl
@[simp] theorem Parser.clear_ttlEn (p : Parser) : (p.clear).ttlEn = p.ttlEn := rfl
@[simp] theorem Parser.clear_ttl (p : Parser) : (p.clear).ttl = p.ttl := rfl

@[simp] theorem Parser.append_buf (p : Parser) (c : Bytes) : (p.append c).buf = p.buf ++ c := rfl
@[simp] theorem Parser.append_explen (p : Parser) (c : Bytes) : (p.append c).explen = p.explen := rfl
@[simp] theorem Parser.append_lastts (p : Parser) (c : Bytes) : (p.append c).lastts = p.lastts := rfl
@[simp] theorem Parser.append_ttlEn (p : Parser) (c : Bytes) : (p.append c).ttlEn = p.ttlEn := rfl
@[simp] theorem Parser.append_ttl (p : Parser) (c : Bytes) : (p.append c).ttl = p.ttl := rfl

@[simp] theorem Parser.stamp_buf (p : Parser) (t : Nat) : (p.stamp t).buf = p.buf := rfl
@[simp] theorem Parser.stamp_explen (p : Parser) (t : Nat) : (p.stamp t).explen = p.explen := rfl
@[simp] theorem Parser.stamp_lastts (p : Parser) (t : Nat) : (p.stamp t).lastts = t := rfl
@[simp] theorem Parser.stamp_ttlEn (p : Parser) (t : Nat) : (p.stamp t).ttlEn = p.ttlEn := rfl
@[simp] theorem Parser.stamp_ttl (p : Parser) (t : Nat) : (p.stamp t).ttl = p.ttl := rfl

@[simp] theorem Parser.fresh_buf (e : Bool) (t : Nat) : (Parser.fresh e t).buf = [] := rfl
@[simp] theorem Parser.fresh_explen (e : Bool) (t : Nat) : (Parser.fresh e t).explen = 0 := rfl
@[simp] theorem Parser.fresh_lastts (e : Bool) (t : Nat) : (Parser.fresh e t).lastts = 0 := rfl
@[simp] theorem Parser.fresh_ttlEn (e : Bool) (t : Nat) : (Parser.fresh e t).ttlEn = e := rfl
@[simp] theorem Parser.fresh_ttl (e : Bool) (t : Nat) : (Parser.fresh e t).ttl = t := rfl

@[simp] theorem State.withPending_parsers (s : State) (q : List HostOp) : State.parsers { s with pending := q } = s.parsers := rfl
@[simp] theorem State.withPending_resp (s : State) (q : List HostOp) : State.resp { s with pending := q } = s.resp := rfl
@[simp] theorem State.withPending_err (s : State) (q : List HostOp) : State.err { s with pending := q } = s.err := rfl
@[simp] theorem State.withPending_errcause (s : State) (q : List HostOp) : State.errcause { s with pending := q } = s.errcause := rfl
@[simp] theorem State.withPending_errinfo0 (s : State) (q : List HostOp) : State.errinfo0 { s with pending := q } = s.errinfo0 := rfl
@[simp] theorem State.withPending_errinfo1 (s : State) (q : List HostOp) : State.errinfo1 { s with pending := q } = s.errinfo1 := rfl
@[simp] theorem State.withPending_out (s : State) (q : List HostOp) : State.out { s with pending := q } = s.out := rfl
@[simp] theorem State.withPending_faultLog (s : State) (q : List HostOp) : State.faultLog { s with pending := q } = s.faultLog := rfl
@[simp] theorem State.withPending_draws (s : State) (q : List HostOp) : State.draws { s with pending := q } = s.draws := rfl
@[simp] theorem State.withPending_unitWord (s : State) (q : List HostOp) : State.unitWord { s with pending := q } = s.unitWord := rfl

@[simp] theorem State.withUnitWord_pending (s : State) (x : Option Presented) : State.pending { s with unitWord := x } = s.pending := rfl
@[simp] theorem State.withUnitWord_parsers (s : State) (x : Option Presented) : State.parsers { s with unitWord := x } = s.parsers := rfl
@[simp] theorem State.withUnitWord_resp (s : State) (x : Option Presented) : State.resp { s with unitWord := x } = s.resp := rfl
@[simp] theorem State.withUnitWord_err (s : State) (x : Option Presented) : State.err { s with unitWord := x } = s.err := rfl
@[simp] theorem State.withUnitWord_errcause (s : State) (x : Option Presented) : State.errcause { s with unitWord := x } = s.errcause := rfl
@[simp] theorem State.withUnitWord_errinfo0 (s : State) (x : Option Presented) : State.errinfo0 { s with unitWord := x } = s.errinfo0 := rfl
@[simp] theorem State.withUnitWord_errinfo1 (s : State) (x : Option Presented) : State.errinfo1 { s with unitWord := x } = s.errinfo1 := rfl
@[simp] theorem State.withUnitWord_out (s : State) (x : Option Presented) : State.out { s with unitWord := x } = s.out := rfl
@[simp] theorem State.withUnitWord_faultLog (s : State) (x : Option Presented) : State.faultLog { s with unitWord := x } = s.faultLog := rfl
@[simp] theorem State.withUnitWord_draws (s : State) (x : Option Presented) : State.draws { s with unitWord := x } = s.draws := rfl

end Sys2Proof.Machine
end

