-- ==== Sys2Proof/Laws/Ops.lean ====
section
/-! SUPPORT. For each shared operation over the parsers, once, everything it can do. -/

namespace Sys2Proof.Machine

/-! ## The store of parsers -/

@[simp] theorem parserAt_putParser_same (l : List (Nat × Parser)) (k : Nat) (p : Parser) :
    parserAt (putParser l k p) k = some p := by
  induction l with
  | nil => simp [putParser, parserAt]
  | cons e rest ih =>
    obtain ⟨j, q⟩ := e
    simp only [putParser]
    split
    · simp [parserAt]
    · split
      · simp [parserAt]
      · rename_i h1 h2
        simp [parserAt, h2, ih]

theorem parserAt_putParser_other (l : List (Nat × Parser)) {j k : Nat} (p : Parser) (h : j ≠ k) :
    parserAt (putParser l k p) j = parserAt l j := by
  induction l with
  | nil => simp [putParser, parserAt, h]
  | cons e rest ih =>
    obtain ⟨i, q⟩ := e
    simp only [putParser]
    split
    · simp [parserAt, h]
    · split
      · rename_i h1 h2
        subst h2
        simp [parserAt, h]
      · simp [parserAt, ih]

theorem mem_putParser {l : List (Nat × Parser)} {k : Nat} {p : Parser} {e : Nat × Parser} (h : e ∈ putParser l k p) :
    e = (k, p) ∨ e ∈ l := by
  induction l with
  | nil => simpa [putParser] using h
  | cons f rest ih =>
    obtain ⟨j, q⟩ := f
    simp only [putParser] at h
    split at h
    · simpa using h
    · split at h
      · rcases List.mem_cons.mp h with h | h
        · exact .inl h
        · exact .inr (List.mem_cons_of_mem _ h)
      · rcases List.mem_cons.mp h with h | h
        · exact .inr (h ▸ List.mem_cons_self)
        · exact (ih h).imp_right (List.mem_cons_of_mem _)

theorem parserAt_mem {l : List (Nat × Parser)} {k : Nat} {p : Parser} (h : parserAt l k = some p) : (k, p) ∈ l := by
  induction l with
  | nil => simp [parserAt] at h
  | cons e rest ih =>
    obtain ⟨j, q⟩ := e
    simp only [parserAt] at h
    split at h
    · rename_i hk
      cases hk; cases h; exact List.mem_cons_self
    · exact List.mem_cons_of_mem _ (ih h)

/-- Writing one parser keeps the links strictly rising. -/
theorem putParser_rising {l : List (Nat × Parser)} (k : Nat) (p : Parser)
    (h : l.Pairwise (fun a b => a.1 < b.1)) : (putParser l k p).Pairwise (fun a b => a.1 < b.1) := by
  induction l with
  | nil => simp [putParser]
  | cons e rest ih =>
    obtain ⟨j, q⟩ := e
    have hr := List.pairwise_cons.mp h
    simp only [putParser]
    split
    · rename_i hk
      refine List.pairwise_cons.mpr ⟨fun f hf => ?_, h⟩
      rcases List.mem_cons.mp hf with hf | hf
      · subst hf; exact hk
      · exact Nat.lt_trans hk (hr.1 f hf)
    · split
      · rename_i hk
        exact List.pairwise_cons.mpr ⟨fun f hf => hk ▸ hr.1 f hf, hr.2⟩
      · rename_i h1 h2
        refine List.pairwise_cons.mpr ⟨fun f hf => ?_, ih hr.2⟩
        rcases mem_putParser hf with hf | hf
        · subst hf; simp only; omega
        · exact hr.1 f hf

@[simp] theorem putParser_putParser (l : List (Nat × Parser)) (k : Nat) (p q : Parser) :
    putParser (putParser l k p) k q = putParser l k q := by
  induction l with
  | nil => simp [putParser]
  | cons e rest ih =>
    obtain ⟨j, r⟩ := e
    by_cases h1 : k < j
    · simp [putParser, h1]
    · by_cases h2 : k = j
      · subst h2; simp [putParser]
      · simp [putParser, h1, h2, ih]

@[simp] theorem State.parser_setParser_same (s : State) (k : Nat) (p : Parser) : (s.setParser k p).parser k = some p := by
  simp [State.parser]

theorem State.parser_setParser_other (s : State) {j k : Nat} (p : Parser) (h : j ≠ k) :
    (s.setParser k p).parser j = s.parser j := by
  simp [State.parser, parserAt_putParser_other _ _ h]

@[simp] theorem State.setParser_setParser (s : State) (k : Nat) (p q : Parser) :
    (s.setParser k p).setParser k q = s.setParser k q := by
  simp [State.setParser]

/-! ## The steps of PARSE on one parser -/

theorem Parser.stale_iff (p : Parser) (now : Nat) :
    p.stale now = true ↔ p.explen ≠ 0 ∧ p.ttlEn = true ∧ (p.ttl : Int) ≤ (now : Int) - (p.lastts : Int) := by
  simp only [Parser.stale, Bool.and_eq_true, bne_iff_ne, decide_eq_true_eq, and_assoc]

theorem Parser.expire_of_stale {p : Parser} {now : Nat} (h : p.stale now = true) : p.expire now = p.clear := by
  simp [Parser.expire, h]

theorem Parser.expire_of_fresh {p : Parser} {now : Nat} (h : p.stale now = false) : p.expire now = p := by
  simp [Parser.expire, h]

theorem Parser.expire_idle {p : Parser} (h : p.explen = 0) (now : Nat) : p.expire now = p :=
  Parser.expire_of_fresh (by simp [Parser.stale, h])

theorem Parser.expire_clear (p : Parser) (now : Nat) : p.clear.expire now = p.clear := Parser.expire_idle rfl now

theorem Parser.feed_of_stale {p : Parser} {now : Nat} (h : p.stale now = true) (c : Bytes) :
    p.feed now c = p.clear.feed now c := by
  simp [Parser.feed, Parser.expire_of_stale h, Parser.expire_clear]

/-- Everything a frame start can do (42_parser.md R175). -/
theorem Parser.start_cases (p : Parser) (c : Bytes) :
    (c.length < 4 ∧ p.start c = .error (.shortStart c.length)) ∨
    (4 ≤ c.length ∧ headerGood c = false ∧ p.start c = .error (.headerMismatch (le16 c 0))) ∨
    (4 ≤ c.length ∧ headerGood c = true ∧
      p.start c = .ok { p with explen := (le16 c 2).setWidth 17 + 4, buf := c }) := by
  by_cases h : c.length < 4
  · exact .inl ⟨h, by simp [Parser.start, h]⟩
  · cases hh : headerGood c
    · exact .inr (.inl ⟨by omega, rfl, by simp [Parser.start, h, hh]⟩)
    · exact .inr (.inr ⟨by omega, rfl, by simp [Parser.start, h, hh]⟩)

/-- Everything the comparison of step 6 can do (42_parser.md R178 to R180). -/
theorem Parser.settle_cases (p : Parser) :
    (p.buf.length < p.explen.toNat ∧ p.settle = (p, .incomplete)) ∨
    (p.explen.toNat < p.buf.length ∧ p.settle = (p.clear, .raised (.overrun p.buf.length p.explen.toNat))) ∨
    (p.buf.length = p.explen.toNat ∧ p.settle = (p.clear, .complete p.buf)) := by
  rcases Nat.lt_trichotomy p.buf.length p.explen.toNat with h | h | h
  · exact .inl ⟨h, by simp [Parser.settle, h]⟩
  · exact .inr (.inr ⟨h, by simp [Parser.settle, h]⟩)
  · exact .inr (.inl ⟨h, by simp [Parser.settle, h, Nat.lt_asymm h]⟩)

/-- A frame start that passes step 3: the parser before the comparison of step 6. -/
def Parser.started (p : Parser) (now : Nat) (c : Bytes) : Parser :=
  { p with explen := (le16 c 2).setWidth 17 + 4, buf := c, lastts := now }

/-- Everything PARSE does to one parser before anything is decoded, on a parser the staleness check has left as it is
(42_parser.md R173, R181). -/
theorem Parser.feed_cases {p : Parser} {now : Nat} (hs : p.stale now = false) (c : Bytes) :
    (p.explen = 0 ∧ c.length < 4 ∧ p.feed now c = (p, .raised (.shortStart c.length))) ∨
    (p.explen = 0 ∧ 4 ≤ c.length ∧ headerGood c = false ∧ p.feed now c = (p, .raised (.headerMismatch (le16 c 0)))) ∨
    (p.explen = 0 ∧ 4 ≤ c.length ∧ headerGood c = true ∧ p.feed now c = (p.started now c).settle) ∨
    (p.explen ≠ 0 ∧ p.feed now c = ((p.append c).stamp now).settle) := by
  by_cases h0 : p.explen = 0
  · rcases Parser.start_cases p c with ⟨h, e⟩ | ⟨h, hh, e⟩ | ⟨h, hh, e⟩
    · exact .inl ⟨h0, h, by simp [Parser.feed, Parser.expire_of_fresh hs, Parser.accept, h0, e]⟩
    · exact .inr (.inl ⟨h0, h, hh, by simp [Parser.feed, Parser.expire_of_fresh hs, Parser.accept, h0, e]⟩)
    · exact .inr (.inr (.inl ⟨h0, h, hh, by
        simp [Parser.feed, Parser.expire_of_fresh hs, Parser.accept, h0, e]; rfl⟩))
  · exact .inr (.inr (.inr ⟨h0, by rw [Parser.feed, Parser.expire_of_fresh hs, Parser.accept, if_neg h0]⟩))

/-- PARSE never writes the timeout (10_state.md R25). -/
theorem Parser.feed_timeout (p : Parser) (now : Nat) (c : Bytes) :
    (p.feed now c).1.ttlEn = p.ttlEn ∧ (p.feed now c).1.ttl = p.ttl := by
  have key : ∀ q : Parser, q.stale now = false →
      (q.feed now c).1.ttlEn = q.ttlEn ∧ (q.feed now c).1.ttl = q.ttl := by
    intro q hq
    have hset : ∀ r : Parser, r.settle.1.ttlEn = r.ttlEn ∧ r.settle.1.ttl = r.ttl := by
      intro r
      rcases Parser.settle_cases r with ⟨_, e⟩ | ⟨_, e⟩ | ⟨_, e⟩ <;> simp [e]
    rcases Parser.feed_cases hq c with ⟨_, _, e⟩ | ⟨_, _, _, e⟩ | ⟨_, _, _, e⟩ | ⟨_, e⟩
    · simp [e]
    · simp [e]
    · rw [e]; exact hset _
    · rw [e]; exact hset _
  cases hs : p.stale now
  · exact key p hs
  · rw [Parser.feed_of_stale hs]; exact key p.clear (by simp [Parser.stale])

end Sys2Proof.Machine
end

