-- ==== Sys2Proof/Laws/Exec.lean ====
section
/-! SUPPORT. Once, everything an operation can do: the three ways it ends, and what it has written by then. -/

namespace Sys2Proof.Machine

/-- The three ways an operation ends on a state whose parsers are already written: a result, RESP, or an exception. -/
inductive Ended (s : State) : State → Prop
  | finish (o : Output) : Ended s (s.finish o)
  | respond (r : Resp) (h : r.Inv) : Ended s (s.respond r)
  | raise (e : Exn) : Ended s (s.raise e)

theorem Ended.parsers {s t : State} (h : Ended s t) : t.parsers = s.parsers := by cases h <;> rfl

theorem Ended.pending {s t : State} (h : Ended s t) : t.pending = s.pending := by cases h <;> rfl

theorem Ended.unitWord {s t : State} (h : Ended s t) : t.unitWord = s.unitWord := by cases h <;> rfl

theorem Ended.draws {s t : State} (h : Ended s t) : t.draws = s.draws := by cases h <;> rfl

theorem Exn.errClass_pos (e : Exn) : 0 < e.errClass := by cases e <;> simp [Exn.errClass]

theorem recordOf_resp_inv (p : Bytes) {b : Body} (h : b.Inv) :
    (Resp.mk true (some (recordOf p b))).Inv := ⟨rfl, rfl, h⟩

theorem endWith_ended (s : State) (x : Except Exn Output) : Ended s (s.endWith x) := by
  cases x
  · exact .raise _
  · exact .finish _

/-- A guarded arm raises, or answers with the record it was given. -/
theorem endRecord_guarded_ended (s : State) (p : Bytes) (a : DecArm) (x : Except Exn DecodedRecord)
    (h : need a ≤ p.length → ∀ d, x = .ok d → (Resp.mk true (some d)).Inv) :
    Ended s (s.endRecord (guarded p a x)) := by
  unfold guarded
  split
  · exact .raise _
  · rename_i hl
    cases x with
    | error e => exact .raise _
    | ok d => exact .respond _ (h (by omega) d rfl)

theorem deviceInfo_inv {p : Bytes} (h : 38 ≤ p.length) : (Body.d180A (deviceInfo p)).Inv := by
  simp only [Body.Inv, deviceInfo]
  refine ⟨?_, ?_, ?_, ?_, ?_⟩ <;> rw [slice_length (by omega)]

/-- Every arm of the dispatch ends, and no arm reads or writes a parser (43_decode.md R200). -/
theorem execArm_ended (a : DecArm) (p : Bytes) (s : State) : ∃ t, execArm a p s = .next t ∧ Ended s t := by
  cases a
  · exact ⟨_, rfl, endRecord_guarded_ended s p .err _ (fun _ d hd => by cases hd; exact recordOf_resp_inv p rfl)⟩
  · exact ⟨_, rfl, endRecord_guarded_ended s p .d5021 _ (fun _ d hd => by cases hd; exact recordOf_resp_inv p rfl)⟩
  · exact ⟨_, rfl, endRecord_guarded_ended s p .d5402 _ (fun _ d hd => by cases hd; exact recordOf_resp_inv p trivial)⟩
  · exact ⟨_, rfl, endRecord_guarded_ended s p .d180A _
      (fun hl d hd => by cases hd; exact recordOf_resp_inv p (deviceInfo_inv hl))⟩
  · exact ⟨_, rfl, endRecord_guarded_ended s p .unsup _ (fun _ d hd => by cases hd)⟩
  · exact ⟨_, rfl, endRecord_guarded_ended s p .bare _ (fun _ d hd => by cases hd; exact recordOf_resp_inv p trivial)⟩

theorem decodePayload_ended (p : Bytes) (s : State) : ∃ t, decodePayload p s = .next t ∧ Ended s t := by
  unfold decodePayload
  split
  · exact ⟨_, rfl, .raise _⟩
  · exact execArm_ended _ _ _

theorem discharge_ended (f : Bytes) (s : State) : ∃ t, discharge f s = .next t ∧ Ended s t := by
  unfold discharge
  split
  · exact decodePayload_ended _ _
  · exact ⟨_, rfl, .raise _⟩

theorem endParse_ended (r : Fed) (s : State) : ∃ t, endParse r s = .next t ∧ Ended s t := by
  cases r with
  | incomplete => exact ⟨_, rfl, .respond _ rfl⟩
  | raised e => exact ⟨_, rfl, .raise _⟩
  | complete f => exact discharge_ended f s

/-- What the meaning of an operation can be, once for all of them. -/
inductive ExecCase (s : State) : Instr → Result → Prop
  /-- An operation on no link ends, and has written no parser. -/
  | plain {i : Instr} {t : State} (hl : linkOf i = none) (h : Ended s t) : ExecCase s i (.next t)
  /-- A colour that the resolution refuses. -/
  | color {r : RuleOperand} {c : ColorOperand} (h : resolveColor c = none) :
      ExecCase s (.bldWrled r c) (.refused .colorUnresolved)
  /-- INIT with a timeout. -/
  | initTtl (k ttl : Nat) :
      ExecCase s (.init k true ttl) (.next ((s.setParser k (Parser.fresh true ttl)).respond Resp.incomplete))
  /-- INIT without one. -/
  | initNoTtl (k ttl : Nat) :
      ExecCase s (.init k false ttl)
        (.next { (s.setParser k (Parser.fresh false (Config.freeTtl s.draws))).respond Resp.incomplete with
          draws := s.draws + 1 })
  /-- PARSE on a parser that was never constructed. -/
  | unconstructed {k now : Nat} {c : ChunkOperand} (h : s.parser k = none) :
      ExecCase s (.parse k now c) (.fault (.unconstructed k))
  /-- PARSE of what is no byte sequence. -/
  | inputType {k now : Nat} {c : ChunkOperand} {p : Parser} (h : s.parser k = some p) (hn : norm c = none) :
      ExecCase s (.parse k now c) (.next (s.raise .inputType))
  /-- PARSE of a byte sequence. -/
  | parse {k now : Nat} {c : ChunkOperand} {p : Parser} {b : Bytes} {t : State} (h : s.parser k = some p)
      (hn : norm c = some b) (ht : Ended (s.setParser k (p.feed now b).1) t) : ExecCase s (.parse k now c) (.next t)

theorem execCase_of_ended {s : State} {i : Instr} (hl : linkOf i = none) {r : Result}
    (h : ∃ t, r = .next t ∧ Ended s t) : ExecCase s i r := by
  obtain ⟨t, rfl, ht⟩ := h
  exact .plain hl ht

/-- Everything an operation can do. -/
theorem exec_cases (i : Instr) (s : State) : ExecCase s i (exec i s) := by
  cases i with
  | init k e ttl =>
    cases e
    · exact .initNoTtl k ttl
    · exact .initTtl k ttl
  | crc16 bs => exact execCase_of_ended rfl ⟨_, rfl, .finish _⟩
  | bldReq p => exact execCase_of_ended rfl ⟨_, rfl, endWith_ended _ _⟩
  | bldRdlong => exact execCase_of_ended rfl ⟨_, rfl, endWith_ended _ _⟩
  | bldRdori => exact execCase_of_ended rfl ⟨_, rfl, endWith_ended _ _⟩
  | bldRdinfo => exact execCase_of_ended rfl ⟨_, rfl, endWith_ended _ _⟩
  | bldWrled r c =>
    cases hc : resolveColor c with
    | none =>
      have : exec (.bldWrled r c) s = .refused .colorUnresolved := by simp [exec, execBldWrled, hc]
      exact this ▸ .color hc
    | some v => exact execCase_of_ended rfl ⟨_, by simp [exec, execBldWrled, hc]; rfl, endWith_ended _ _⟩
  | parse k now c =>
    cases hp : s.parser k with
    | none =>
      have : exec (.parse k now c) s = .fault (.unconstructed k) := by simp [exec, execParse, hp]
      exact this ▸ .unconstructed hp
    | some p =>
      cases hn : norm c with
      | none =>
        have : exec (.parse k now c) s = .next (s.raise .inputType) := by simp [exec, execParse, hp, hn]
        exact this ▸ .inputType hp hn
      | some b =>
        have : exec (.parse k now c) s = endParse (p.feed now b).2 (s.setParser k (p.feed now b).1) := by
          simp [exec, execParse, hp, hn]
        obtain ⟨t, ht, he⟩ := endParse_ended (p.feed now b).2 (s.setParser k (p.feed now b).1)
        rw [this, ht]
        exact .parse hp hn he
  | hostopReserved op => exact execCase_of_ended rfl ⟨_, rfl, .raise _⟩
  | reqRd5021 => exact execCase_of_ended rfl ⟨_, rfl, endWith_ended _ _⟩
  | reqRd5402 => exact execCase_of_ended rfl ⟨_, rfl, endWith_ended _ _⟩
  | reqRd180A => exact execCase_of_ended rfl ⟨_, rfl, endWith_ended _ _⟩
  | reqWr5111 code r g b => exact execCase_of_ended rfl ⟨_, rfl, endWith_ended _ _⟩
  | decErr p => exact execCase_of_ended rfl (execArm_ended .err p s)
  | dec5021 p => exact execCase_of_ended rfl (execArm_ended .d5021 p s)
  | dec5402 p => exact execCase_of_ended rfl (execArm_ended .d5402 p s)
  | dec180A p => exact execCase_of_ended rfl (execArm_ended .d180A p s)
  | decUnsup p => exact execCase_of_ended rfl (execArm_ended .unsup p s)
  | decBare p => exact execCase_of_ended rfl (execArm_ended .bare p s)
  | status01 => exact execCase_of_ended rfl ⟨_, rfl, .finish _⟩
  | status02 => exact execCase_of_ended rfl ⟨_, rfl, .finish _⟩
  | status81 => exact execCase_of_ended rfl ⟨_, rfl, .finish _⟩
  | status82 => exact execCase_of_ended rfl ⟨_, rfl, .finish _⟩
  | statusDefault key => exact execCase_of_ended rfl ⟨_, rfl, .finish _⟩
  | error01 => exact execCase_of_ended rfl ⟨_, rfl, .finish _⟩
  | error02 => exact execCase_of_ended rfl ⟨_, rfl, .finish _⟩
  | error03 => exact execCase_of_ended rfl ⟨_, rfl, .finish _⟩
  | error04 => exact execCase_of_ended rfl ⟨_, rfl, .finish _⟩
  | error05 => exact execCase_of_ended rfl ⟨_, rfl, .finish _⟩
  | error06 => exact execCase_of_ended rfl ⟨_, rfl, .finish _⟩
  | errorDefault key => exact execCase_of_ended rfl ⟨_, rfl, .finish _⟩
  | vib00 => exact execCase_of_ended rfl ⟨_, rfl, .finish _⟩
  | vib01 => exact execCase_of_ended rfl ⟨_, rfl, .finish _⟩
  | vib02 => exact execCase_of_ended rfl ⟨_, rfl, .finish _⟩
  | vibDefault key => exact execCase_of_ended rfl ⟨_, rfl, .finish _⟩
  | ruleOff => exact execCase_of_ended rfl ⟨_, rfl, .finish _⟩
  | ruleOn => exact execCase_of_ended rfl ⟨_, rfl, .finish _⟩
  | ruleTemperature => exact execCase_of_ended rfl ⟨_, rfl, .finish _⟩
  | ruleHumidity => exact execCase_of_ended rfl ⟨_, rfl, .finish _⟩
  | ruleIlluminance => exact execCase_of_ended rfl ⟨_, rfl, .finish _⟩
  | ruleBarometricPressure => exact execCase_of_ended rfl ⟨_, rfl, .finish _⟩
  | ruleSoundNoise => exact execCase_of_ended rfl ⟨_, rfl, .finish _⟩
  | ruleEtvoc => exact execCase_of_ended rfl ⟨_, rfl, .finish _⟩
  | ruleVibration => exact execCase_of_ended rfl ⟨_, rfl, .finish _⟩
  | ruleDefault rule => exact execCase_of_ended rfl ⟨_, rfl, .finish _⟩
  | frame f => exact execCase_of_ended rfl (discharge_ended f s)

/-- The same, read from a next state. -/
theorem execCase_of_next {i : Instr} {s t : State} (h : exec i s = .next t) : ExecCase s i (.next t) :=
  h ▸ exec_cases i s

end Sys2Proof.Machine
end

