-- ==== Sys2Proof/Laws/Parser.lean ====
section
/-! SUPPORT. What PARSE and the decode of a completed frame do, once for all the statements about them. -/

namespace Sys2Proof.Machine

/-! ## The decode of a payload -/

theorem exec_armInstr (a : DecArm) (p : Bytes) (s : State) : exec (armInstr a p) s = execArm a p s := by cases a <;> rfl

/-- DECODE of a payload is the instruction the decoder reads from it (43_decode.md R202). -/
theorem decodePayload_of_decode {p : Bytes} {i : Instr} (h : decode ⟨.rsp, p, {}⟩ = .ok i) (s : State) :
    decodePayload p s = exec i s := by
  simp only [decode, decodeRsp] at h
  split at h
  · cases h
  · rename_i hl
    cases h
    rw [decodePayload, if_neg hl, exec_armInstr]

theorem decodePayload_of_short {p : Bytes} (h : p.length < 3) (s : State) :
    decodePayload p s = .next (s.raise (.payloadLength p.length 3)) := by
  rw [decodePayload, if_pos h]

/-! ## PARSE -/

theorem exec_parse_bytes {s : State} {k : Nat} {p : Parser} (h : s.parser k = some p) (now : Nat) (c : Bytes) :
    exec (.parse k now (.bytes c)) s = endParse (p.feed now c).2 (s.setParser k (p.feed now c).1) := by
  show execParse k now (.bytes c) s = _
  simp only [execParse, h, Machine.norm]

/-- The parser after the staleness check, and what the rest of PARSE does on it (42_parser.md R174). -/
theorem afterStaleness {p q : Parser} {now : Nat} (h : AfterStaleness p now q) :
    q.stale now = false ∧ (∀ c, p.feed now c = q.feed now c) ∧ q.ttlEn = p.ttlEn ∧ q.ttl = p.ttl := by
  rcases h with ⟨h, rfl⟩ | ⟨h, rfl⟩
  · exact ⟨rfl, Parser.feed_of_stale ((Parser.stale_iff p now).mpr h), rfl, rfl⟩
  · exact ⟨by rw [← Bool.not_eq_true, Parser.stale_iff]; exact h, fun _ => rfl, rfl, rfl⟩

/-- A chunk that is accepted leaves the parser with the frame's bytes, its length and the time stamp, and then the lengths
are compared (42_parser.md R175 to R177). -/
theorem feed_of_accepts {q : Parser} {now : Nat} {c f : Bytes} {len : Nat} (hs : q.stale now = false)
    (h : Accepts q c f len) :
    ∃ r : Parser, r.buf = f ∧ r.explen.toNat = len ∧ r.lastts = now ∧ r.ttlEn = q.ttlEn ∧ r.ttl = q.ttl ∧
      q.feed now c = r.settle := by
  rcases h with ⟨h0, h4, hb0, hb1, rfl, rfl⟩ | ⟨h0, rfl, rfl⟩
  · rcases Parser.feed_cases hs f with ⟨_, hl, _⟩ | ⟨_, _, hg, _⟩ | ⟨_, _, _, e⟩ | ⟨hn, _⟩
    · omega
    · rw [(headerGood_iff f).mpr ⟨hb0, hb1⟩] at hg; cases hg
    · refine ⟨q.started now f, rfl, ?_, rfl, rfl, rfl, e⟩
      simp only [Parser.started]; rw [expected_toNat, le16_toNat]
    · exact absurd h0 hn
  · rcases Parser.feed_cases hs c with ⟨hn, _⟩ | ⟨hn, _⟩ | ⟨hn, _⟩ | ⟨_, e⟩
    · exact absurd hn h0
    · exact absurd hn h0
    · exact absurd hn h0
    · exact ⟨(q.append c).stamp now, rfl, rfl, rfl, rfl, rfl, e⟩

theorem expected_ne_zero (v : Half) : (v.setWidth 17 + 4 : BitVec 17) ≠ 0 := by
  intro h
  have := expected_toNat v
  rw [h] at this; simp at this

/-- What a parser holds after the comparison of the lengths meets the invariant (10_state.md R26). -/
theorem settle_inv {r : Parser} (h : r.explen ≠ 0) (h4 : 4 ≤ r.buf.length)
    (hb : byteAt r.buf 0 = 0x52 ∧ byteAt r.buf 1 = 0x42) (he : r.explen.toNat = (le16 r.buf 2).toNat + 4) :
    r.settle.1.Inv := by
  rcases Parser.settle_cases r with ⟨hl, e⟩ | ⟨_, e⟩ | ⟨_, e⟩
  · rw [e]; exact ⟨fun h' => absurd h' h, fun _ => ⟨h4, hl, hb.1, hb.2, he⟩⟩
  · rw [e]; exact ⟨fun _ => ⟨rfl, rfl⟩, fun h' => absurd rfl h'⟩
  · rw [e]; exact ⟨fun _ => ⟨rfl, rfl⟩, fun h' => absurd rfl h'⟩

theorem clear_inv (p : Parser) : p.clear.Inv := ⟨fun _ => ⟨rfl, rfl⟩, fun h => absurd rfl h⟩

theorem fresh_inv (e : Bool) (t : Nat) : (Parser.fresh e t).Inv := ⟨fun _ => ⟨rfl, rfl⟩, fun h => absurd rfl h⟩

/-- A chunk keeps the invariant of its parser (10_state.md R26). -/
theorem feed_inv {p : Parser} (h : p.Inv) (now : Nat) (c : Bytes) : (p.feed now c).1.Inv := by
  have key : ∀ q : Parser, q.Inv → q.stale now = false → (q.feed now c).1.Inv := by
    intro q hq hs
    rcases Parser.feed_cases hs c with ⟨_, _, e⟩ | ⟨_, _, _, e⟩ | ⟨_, h4, hg, e⟩ | ⟨hn, e⟩
    · rw [e]; exact hq
    · rw [e]; exact hq
    · rw [e]
      exact settle_inv (r := q.started now c) (expected_ne_zero _) h4 ((headerGood_iff c).mp hg) (expected_toNat _)
    · rw [e]
      obtain ⟨g1, g2, g3, g4, g5⟩ := hq.2 hn
      refine settle_inv (r := (q.append c).stamp now) hn (by simp; omega) ⟨?_, ?_⟩ ?_
      · simp only [Parser.stamp_buf, Parser.append_buf]; rw [byteAt_append_left (by omega)]; exact g3
      · simp only [Parser.stamp_buf, Parser.append_buf]; rw [byteAt_append_left (by omega)]; exact g4
      · simp only [Parser.stamp_buf, Parser.append_buf, Parser.stamp_explen, Parser.append_explen]
        rw [le16_append_left (by omega)]; exact g5
  cases hs : p.stale now
  · exact key p h hs
  · rw [Parser.feed_of_stale hs]; exact key _ (clear_inv p) (by simp [Parser.stale])

/-- The end of a PARSE sees the parsers, the queue, the unit word, the log and the draws of its state, and no other field. -/
theorem endParse_congr {u s : State} (r : Fed) (h0 : u.pending = s.pending) (h1 : u.parsers = s.parsers)
    (h2 : u.faultLog = s.faultLog) (h3 : u.draws = s.draws) (h4 : u.unitWord = s.unitWord) : endParse r u = endParse r s := by
  have hraise : ∀ e, u.raise e = s.raise e := by intro e; simp [State.raise, *]
  have hresp : ∀ e, u.respond e = s.respond e := by intro e; simp [State.respond, State.finish, *]
  have hrec : ∀ e, u.endRecord e = s.endRecord e := by intro e; cases e <;> simp [State.endRecord, *]
  have hdp : ∀ p, decodePayload p u = decodePayload p s := by
    intro p
    simp only [decodePayload, execArm, execDecErr, execDec5021, execDec5402, execDec180A, execDecUnsup, execDecBare,
      hrec, hraise]
  cases r with
  | incomplete => simp [endParse, hresp]
  | raised e => simp [endParse, hraise]
  | complete f => simp only [endParse, discharge, hdp, hraise]

/-- The end of a PARSE leaves every parser as it finds it. -/
theorem endParse_parser {r : Fed} {s t : State} (h : endParse r s = .next t) (k : Nat) : t.parser k = s.parser k := by
  obtain ⟨u, hu, he⟩ := endParse_ended r s
  rw [h] at hu; cases hu
  rw [State.parser, he.parsers]; rfl

end Sys2Proof.Machine
end

