-- ==== Sys2Proof/Laws/PerInstr.lean ====
section
/-! SUPPORT. Per instruction: the word the encoder writes is one the instruction's row of spec/opcode_table.json matches. -/

namespace Sys2Proof.Laws.RowWord

/-- A row of spec/opcode_table.json: its format, its mask and its match value. -/
structure Row where
  fmt   : Format
  mask  : BitVec 24
  value : BitVec 24

/-- The leading bits of a word, numbered as the opcode table numbers them: the first byte holds bits 7 to 0. -/
def leadingBits (w : Bytes) : BitVec 24 := Machine.le16 w 1 ++ Machine.byteAt w 0

/-- The rows of spec/opcode_table.json. -/
def row : Instr → Row
  | .init _ _ _ => ⟨.hostop, 0xF, 0x0⟩
  | .crc16 _ => ⟨.hostop, 0xF, 0x1⟩
  | .bldReq _ => ⟨.hostop, 0xF, 0x2⟩
  | .bldRdlong => ⟨.hostop, 0xF, 0x3⟩
  | .bldRdori => ⟨.hostop, 0xF, 0x4⟩
  | .bldRdinfo => ⟨.hostop, 0xF, 0x5⟩
  | .bldWrled _ _ => ⟨.hostop, 0xF, 0x6⟩
  | .parse _ _ _ => ⟨.hostop, 0xF, 0x7⟩
  | .hostopReserved _ => ⟨.hostop, 0x8, 0x8⟩
  | .reqRd5021 => ⟨.req, 0xFFFFFF, 0x502101⟩
  | .reqRd5402 => ⟨.req, 0xFFFFFF, 0x540201⟩
  | .reqRd180A => ⟨.req, 0xFFFFFF, 0x180A01⟩
  | .reqWr5111 _ _ _ _ => ⟨.req, 0xFFFFFF, 0x511102⟩
  | .decErr _ => ⟨.rsp, 0x000080, 0x000080⟩
  | .dec5021 _ => ⟨.rsp, 0xFFFF80, 0x502100⟩
  | .dec5402 _ => ⟨.rsp, 0xFFFF80, 0x540200⟩
  | .dec180A _ => ⟨.rsp, 0xFFFF80, 0x180A00⟩
  | .decUnsup _ => ⟨.rsp, 0x0000FF, 0x000001⟩
  | .decBare _ => ⟨.rsp, 0x000080, 0x000000⟩
  | .status01 => ⟨.tblStatus, 0xFF, 0x01⟩
  | .status02 => ⟨.tblStatus, 0xFF, 0x02⟩
  | .status81 => ⟨.tblStatus, 0xFF, 0x81⟩
  | .status82 => ⟨.tblStatus, 0xFF, 0x82⟩
  | .statusDefault _ => ⟨.tblStatus, 0x00, 0x00⟩
  | .error01 => ⟨.tblError, 0xFF, 0x01⟩
  | .error02 => ⟨.tblError, 0xFF, 0x02⟩
  | .error03 => ⟨.tblError, 0xFF, 0x03⟩
  | .error04 => ⟨.tblError, 0xFF, 0x04⟩
  | .error05 => ⟨.tblError, 0xFF, 0x05⟩
  | .error06 => ⟨.tblError, 0xFF, 0x06⟩
  | .errorDefault _ => ⟨.tblError, 0x00, 0x00⟩
  | .vib00 => ⟨.tblVib, 0xFF, 0x00⟩
  | .vib01 => ⟨.tblVib, 0xFF, 0x01⟩
  | .vib02 => ⟨.tblVib, 0xFF, 0x02⟩
  | .vibDefault _ => ⟨.tblVib, 0x00, 0x00⟩
  | .ruleOff => ⟨.tblRule, 0xFFFF, 0x0000⟩
  | .ruleOn => ⟨.tblRule, 0xFFFF, 0x0001⟩
  | .ruleTemperature => ⟨.tblRule, 0xFFFF, 0x0002⟩
  | .ruleHumidity => ⟨.tblRule, 0xFFFF, 0x0003⟩
  | .ruleIlluminance => ⟨.tblRule, 0xFFFF, 0x0004⟩
  | .ruleBarometricPressure => ⟨.tblRule, 0xFFFF, 0x0005⟩
  | .ruleSoundNoise => ⟨.tblRule, 0xFFFF, 0x0006⟩
  | .ruleEtvoc => ⟨.tblRule, 0xFFFF, 0x0007⟩
  | .ruleVibration => ⟨.tblRule, 0xFFFF, 0x0008⟩
  | .ruleDefault _ => ⟨.tblRule, 0xFFFF, 0x0000⟩
  | .frame _ => ⟨.frame, 0xFFFF, 0x4252⟩

/-- The encoded word has the row's format, and under the row's mask it is the row's match value. -/
def Statement (i : Instr) : Prop :=
  i.wellFormed = true → (encode i).fmt = (row i).fmt ∧ leadingBits (encode i).word &&& (row i).mask = (row i).value

theorem masked (a m : Half) (b n : Byte) : (a ++ b : BitVec 24) &&& (m ++ n : BitVec 24) = (a &&& m) ++ (b &&& n) := by
  rw [BitVec.and_append]

/-- What the arms of the dispatch know of status and address. -/
theorem selects_cases {p : Bytes} {a : DecArm} (h : selects p a = true) :
    (a = .err → Machine.byteAt p 0 &&& 0x80 ≠ 0) ∧
    (a ≠ .err → Machine.byteAt p 0 &&& 0x80 = 0) ∧
    (a = .d5021 → Machine.le16 p 1 = 0x5021) ∧ (a = .d5402 → Machine.le16 p 1 = 0x5402) ∧
    (a = .d180A → Machine.le16 p 1 = 0x180A) ∧ (a = .unsup → Machine.byteAt p 0 = 0x01) := by
  simp only [selects, Bool.and_eq_true, beq_iff_eq] at h
  obtain ⟨-, h⟩ := h
  rw [Machine.dispatch_eq] at h
  split at h
  · (subst h; simp_all)
  · split at h
    · (subst h; simp_all)
    · split at h
      · (subst h; simp_all)
      · split at h
        · (subst h; simp_all)
        · split at h <;> (subst h; simp_all)

theorem bit_of_error {b : Byte} (h : b &&& 0x80 ≠ 0) : b &&& 0x80 = 0x80 := by
  revert b; decide

theorem init (link : Nat) (ttlEn : Bool) (ttl : Nat) : Statement (.init link ttlEn ttl) :=
  fun _ => ⟨rfl, (by decide : leadingBits [0x00] &&& 0xF = 0x0)⟩

theorem crc16 (bytes : Bytes) : Statement (.crc16 bytes) :=
  fun _ => ⟨rfl, (by decide : leadingBits [0x01] &&& 0xF = 0x1)⟩

theorem bldReq (payload : Bytes) : Statement (.bldReq payload) :=
  fun _ => ⟨rfl, (by decide : leadingBits [0x02] &&& 0xF = 0x2)⟩

theorem bldRdlong : Statement .bldRdlong := fun _ => ⟨rfl, rfl⟩

theorem bldRdori : Statement .bldRdori := fun _ => ⟨rfl, rfl⟩

theorem bldRdinfo : Statement .bldRdinfo := fun _ => ⟨rfl, rfl⟩

theorem bldWrled (rule : RuleOperand) (color : ColorOperand) : Statement (.bldWrled rule color) :=
  fun _ => ⟨rfl, (by decide : leadingBits [0x06] &&& 0xF = 0x6)⟩

theorem parse (link : Nat) (now : Nat) (chunk : ChunkOperand) : Statement (.parse link now chunk) :=
  fun _ => ⟨rfl, (by decide : leadingBits [0x07] &&& 0xF = 0x7)⟩

theorem hostopReserved (op : BitVec 4) : Statement (.hostopReserved op) := by
  refine fun h => ⟨rfl, ?_⟩
  revert op; decide

theorem reqRd5021 : Statement .reqRd5021 := fun _ => ⟨rfl, rfl⟩

theorem reqRd5402 : Statement .reqRd5402 := fun _ => ⟨rfl, rfl⟩

theorem reqRd180A : Statement .reqRd180A := fun _ => ⟨rfl, rfl⟩

theorem reqWr5111 (code : Half) (red : Byte) (green : Byte) (blue : Byte) : Statement (.reqWr5111 code red green blue) := by
  refine fun _ => ⟨rfl, ?_⟩
  exact (by decide : leadingBits [0x02, 0x11, 0x51] &&& 0xFFFFFF = 0x511102)

theorem decErr (p : Bytes) : Statement (.decErr p) := by
  intro h
  refine ⟨rfl, ?_⟩
  have hb := bit_of_error ((selects_cases h).1 rfl)
  exact (masked (Machine.le16 p 1) 0x0000 (Machine.byteAt p 0) 0x80).trans (by rw [hb]; simp [row])

theorem dec5021 (p : Bytes) : Statement (.dec5021 p) := by
  intro h
  refine ⟨rfl, ?_⟩
  have hb := (selects_cases h).2.1 (by decide)
  have ha := (selects_cases h).2.2.1 rfl
  exact (masked (Machine.le16 p 1) 0xFFFF (Machine.byteAt p 0) 0x80).trans (by rw [hb, ha]; rfl)

theorem dec5402 (p : Bytes) : Statement (.dec5402 p) := by
  intro h
  refine ⟨rfl, ?_⟩
  have hb := (selects_cases h).2.1 (by decide)
  have ha := (selects_cases h).2.2.2.1 rfl
  exact (masked (Machine.le16 p 1) 0xFFFF (Machine.byteAt p 0) 0x80).trans (by rw [hb, ha]; rfl)

theorem dec180A (p : Bytes) : Statement (.dec180A p) := by
  intro h
  refine ⟨rfl, ?_⟩
  have hb := (selects_cases h).2.1 (by decide)
  have ha := (selects_cases h).2.2.2.2.1 rfl
  exact (masked (Machine.le16 p 1) 0xFFFF (Machine.byteAt p 0) 0x80).trans (by rw [hb, ha]; rfl)

theorem decUnsup (p : Bytes) : Statement (.decUnsup p) := by
  intro h
  refine ⟨rfl, ?_⟩
  have hb := (selects_cases h).2.2.2.2.2 rfl
  exact (masked (Machine.le16 p 1) 0x0000 (Machine.byteAt p 0) 0xFF).trans (by rw [hb]; simp [row])

theorem decBare (p : Bytes) : Statement (.decBare p) := by
  intro h
  refine ⟨rfl, ?_⟩
  have hb := (selects_cases h).2.1 (by decide)
  exact (masked (Machine.le16 p 1) 0x0000 (Machine.byteAt p 0) 0x80).trans (by rw [hb]; simp [row])

theorem status01 : Statement .status01 := fun _ => ⟨rfl, rfl⟩

theorem status02 : Statement .status02 := fun _ => ⟨rfl, rfl⟩

theorem status81 : Statement .status81 := fun _ => ⟨rfl, rfl⟩

theorem status82 : Statement .status82 := fun _ => ⟨rfl, rfl⟩

theorem statusDefault (key : Byte) : Statement (.statusDefault key) := fun _ => ⟨rfl, by simp [row]⟩

theorem error01 : Statement .error01 := fun _ => ⟨rfl, rfl⟩

theorem error02 : Statement .error02 := fun _ => ⟨rfl, rfl⟩

theorem error03 : Statement .error03 := fun _ => ⟨rfl, rfl⟩

theorem error04 : Statement .error04 := fun _ => ⟨rfl, rfl⟩

theorem error05 : Statement .error05 := fun _ => ⟨rfl, rfl⟩

theorem error06 : Statement .error06 := fun _ => ⟨rfl, rfl⟩

theorem errorDefault (key : Byte) : Statement (.errorDefault key) := fun _ => ⟨rfl, by simp [row]⟩

theorem vib00 : Statement .vib00 := fun _ => ⟨rfl, rfl⟩

theorem vib01 : Statement .vib01 := fun _ => ⟨rfl, rfl⟩

theorem vib02 : Statement .vib02 := fun _ => ⟨rfl, rfl⟩

theorem vibDefault (key : Byte) : Statement (.vibDefault key) := fun _ => ⟨rfl, by simp [row]⟩

theorem ruleOff : Statement .ruleOff := fun _ => ⟨rfl, rfl⟩

theorem ruleOn : Statement .ruleOn := fun _ => ⟨rfl, rfl⟩

theorem ruleTemperature : Statement .ruleTemperature := fun _ => ⟨rfl, rfl⟩

theorem ruleHumidity : Statement .ruleHumidity := fun _ => ⟨rfl, rfl⟩

theorem ruleIlluminance : Statement .ruleIlluminance := fun _ => ⟨rfl, rfl⟩

theorem ruleBarometricPressure : Statement .ruleBarometricPressure := fun _ => ⟨rfl, rfl⟩

theorem ruleSoundNoise : Statement .ruleSoundNoise := fun _ => ⟨rfl, rfl⟩

theorem ruleEtvoc : Statement .ruleEtvoc := fun _ => ⟨rfl, rfl⟩

theorem ruleVibration : Statement .ruleVibration := fun _ => ⟨rfl, rfl⟩

theorem ruleDefault (rule : RuleOperand) : Statement (.ruleDefault rule) :=
  fun _ => ⟨rfl, (by decide : leadingBits [0x00, 0x00] &&& 0xFFFF = 0x0000)⟩

theorem frame (f : Bytes) : Statement (.frame f) := by
  intro h
  refine ⟨rfl, ?_⟩
  simp only [Instr.wellFormed, wholeFrame, Bool.and_eq_true, Machine.headerGood_iff] at h
  have e : leadingBits f = (Machine.byteAt f 2 ++ (0x42 : Byte)) ++ (0x52 : Byte) := by
    rw [leadingBits, Machine.le16, h.1.2.1, h.1.2.2]
  have h2 : ((Machine.byteAt f 2 ++ (0x42 : Byte)) ++ (0x52 : Byte) : BitVec 24) &&& 0xFFFF = 0x4252 := by
    generalize Machine.byteAt f 2 = b
    revert b; decide
  exact e ▸ h2

end Sys2Proof.Laws.RowWord
end

