-- ==== Sys2Proof/Laws/Step.lean ====
section
/-! SUPPORT. What the next word of a step is, and what the word of a host operation decodes to. -/

namespace Sys2Proof.Machine

theorem State.fetch_of_unitWord {s : State} {x : Presented} (h : s.unitWord = some x) :
    s.fetch = some (x, { s with unitWord := none }) := by
  simp [State.fetch, h]

theorem State.fetch_of_pending {s : State} {o : HostOp} {rest : List HostOp} (h : s.unitWord = none)
    (hp : s.pending = o :: rest) : s.fetch = some (o.word, { s with pending := rest }) := by
  simp [State.fetch, h, hp]

theorem State.fetch_of_nothing {s : State} (h : s.unitWord = none) (hp : s.pending = []) : s.fetch = none := by
  simp [State.fetch, h, hp]

/-- The word of a host operation decodes to the operation of its code and lines (30_encoding.md R80, R81). -/
theorem decode_hostOp_word (o : HostOp) : decode o.word = .ok (decodeHostop o.op o.lines) := by
  have h := o.op.isLt
  simp only [decode, HostOp.word]
  rw [if_pos (by simp; omega)]
  simp

/-- A placed host operation is the next word, and no unit word stands before it. -/
theorem State.place_hostOp (s : State) (o : HostOp) :
    s.place o.word = { s with pending := o :: s.pending, unitWord := none } := by
  have h := o.op.isLt
  simp only [State.place, HostOp.word]
  rw [if_pos (by simp; omega)]
  simp

end Sys2Proof.Machine
end

