-- ==== Sys2Proof/Tests/Slice0.lean ====
section
/-! SUPPORT. Tests. Every expected value stands in spec/: the encodings of 30_encoding.md, the vectors of 95_test_vectors.md
(S1 to S5, parts 2 and 3). The theorems test_witness_… show concrete operands that meet the hypotheses of the statement they
name, each clause at its boundary. -/

open Sys2Proof Sys2Proof.Machine

namespace Sys2Proof.Tests

-- One test after another: all of them at once need more threads than the memory limit of the check allows.
set_option Elab.async false

/-! ## Helpers -/

/-- `n` bytes in wire order, first byte leftmost, as spec/95 writes them. -/
def wire (n w : Nat) : Bytes := (bytesOfNat n w).reverse

/-- The state after INIT ttl_en=1 ttl=1000 (95_test_vectors.md 2.3). -/
def fresh : State := { State.reset with parsers := [(0, Parser.fresh true 1000)] }

/-- A parser that holds the first bytes of the frame of S4, received at `t` (95_test_vectors.md 2.4). -/
def waiting (held : Bytes) (t : Nat) (ttlEn : Bool) (ttl : Nat) : State :=
  { State.reset with parsers := [(0, { buf := held, explen := 10, lastts := t, ttlEn := ttlEn, ttl := ttl })] }

def outOf : Result → Option Output
  | .next t => some t.out
  | .fault _ => none
  | .refused _ => none

def respOf : Result → Option (Option Resp)
  | .next t => some t.resp
  | .fault _ => none
  | .refused _ => none

/-- ERR, ERRCAUSE, ERRINFO0, ERRINFO1. -/
def errOf : Result → Option (Nat × Nat × Nat × Nat)
  | .next t => some (t.err, t.errcause, t.errinfo0, t.errinfo1)
  | .fault _ => none
  | .refused _ => none

/-- PSTATE, EXPLEN, BUFLEN, LASTTS of the parser of link 0, as spec/95 writes a state. -/
def parserOf : Result → Option (PState × Nat × Nat × Nat)
  | .next t => (t.parser 0).map fun p => (p.pstate, p.explen.toNat, p.buflen, p.lastts)
  | .fault _ => none
  | .refused _ => none

/-- PARSE of bytes on link 0. -/
def feed (t : Nat) (c : Bytes) (s : State) : Result := exec (.parse 0 t (.bytes c)) s

/-- The record of S4. -/
def recordS4 : Resp :=
  { finished := true, record := some { statusCode := 0x81, status := .readError, address := 0x5021, body := .errRsp 0x01 (some .crcError) } }

/-- The payload of S5 as spec/95 reconstructs it (52 bytes). -/
def payloadS5 : Bytes :=
  wire 25 0x0121503729075c1d5b00fe4b0f004d1c000090010319670700 ++ List.replicate 27 0x00

/-- The payload of the signed and boundary vector of 2.5 (31 bytes). -/
def payloadSigned : Bytes := wire 31 0x012150ff2efb1027ffffffffffffff7f0080d007401fceff02d20455551fef

/-! ## WellFormed: an ill-formed term for each check -/

theorem test_wf_reserved_op : (Instr.hostopReserved 7).wellFormed = false ∧ (Instr.hostopReserved 8).wellFormed = true := by decide
theorem test_wf_dec_short : (Instr.decBare [0x02, 0x11]).wellFormed = false := by decide
theorem test_wf_dec_err : (Instr.decErr [0x01, 0x21, 0x50, 0x01]).wellFormed = false := by decide
theorem test_wf_dec_5021 : (Instr.dec5021 [0x81, 0x21, 0x50]).wellFormed = false := by decide
theorem test_wf_dec_5402 : (Instr.dec5402 [0x01, 0x02, 0x55]).wellFormed = false := by decide
theorem test_wf_dec_180A : (Instr.dec180A [0x01, 0x0a, 0x19]).wellFormed = false := by decide
theorem test_wf_dec_unsup : (Instr.decUnsup [0x02, 0x11, 0x51]).wellFormed = false := by decide
theorem test_wf_dec_bare : (Instr.decBare [0x01, 0x11, 0x51]).wellFormed = false := by decide
theorem test_wf_status_default : (Instr.statusDefault 0x81).wellFormed = false := by decide
theorem test_wf_error_default : (Instr.errorDefault 0x06).wellFormed = false := by decide
theorem test_wf_vib_default : (Instr.vibDefault 0x02).wellFormed = false := by decide
theorem test_wf_rule_default : (Instr.ruleDefault (.name "eTVOC")).wellFormed = false ∧ (Instr.ruleDefault (.index 8)).wellFormed = false := by decide
theorem test_wf_frame_short : (Instr.frame [0x52, 0x42, 0x00]).wellFormed = false := by decide
theorem test_wf_frame_header : (Instr.frame [0x53, 0x42, 0x00, 0x00]).wellFormed = false := by decide
theorem test_wf_frame_length : (Instr.frame [0x52, 0x42, 0x01, 0x00]).wellFormed = false := by decide

/-! ## Decoding: a word of every row, written out from the spec's encodings -/

/-- 30_encoding.md R80, R81. -/
theorem test_decode_hostop :
    decode ⟨.hostop, [0x00], { link := 2, ttlEn := true, ttl := 1000 }⟩ = .ok (.init 2 true 1000) ∧
    decode ⟨.hostop, [0x01], { bytes := [0x31] }⟩ = .ok (.crc16 [0x31]) ∧
    decode ⟨.hostop, [0x02], { payload := [0xaa] }⟩ = .ok (.bldReq [0xaa]) ∧
    decode ⟨.hostop, [0x03], {}⟩ = .ok .bldRdlong ∧
    decode ⟨.hostop, [0x04], {}⟩ = .ok .bldRdori ∧
    decode ⟨.hostop, [0x05], {}⟩ = .ok .bldRdinfo ∧
    decode ⟨.hostop, [0x06], { rule := .name "ON", color := .str "#0D58C1" }⟩ = .ok (.bldWrled (.name "ON") (.str "#0D58C1")) ∧
    decode ⟨.hostop, [0x07], { now := 5, chunk := .bytes [0x52] }⟩ = .ok (.parse 0 5 (.bytes [0x52])) ∧
    decode ⟨.hostop, [0x0f], {}⟩ = .ok (.hostopReserved 0xf) ∧
    decode ⟨.hostop, [0x10], {}⟩ = .error .hostWord :=
  ⟨rfl, rfl, rfl, rfl, rfl, rfl, rfl, rfl, rfl, rfl⟩

/-- 30_encoding.md R84, R85, R86; the last is a read of the LED register, which the command table has not. -/
theorem test_decode_req :
    decode ⟨.req, [0x01, 0x21, 0x50], {}⟩ = .ok .reqRd5021 ∧
    decode ⟨.req, [0x01, 0x02, 0x54], {}⟩ = .ok .reqRd5402 ∧
    decode ⟨.req, [0x01, 0x0a, 0x18], {}⟩ = .ok .reqRd180A ∧
    decode ⟨.req, [0x02, 0x11, 0x51, 0x34, 0x12, 0x0d, 0x58, 0xc1], {}⟩ = .ok (.reqWr5111 0x1234 0x0d 0x58 0xc1) ∧
    decode ⟨.req, [0x01, 0x11, 0x51], {}⟩ = .error .requestWord := ⟨rfl, rfl, rfl, rfl, rfl⟩

/-- 30_encoding.md R94; status 0x02 with a known address is decoded by the address (D28). -/
theorem test_decode_rsp :
    decode ⟨.rsp, [0x90, 0x21, 0x50, 0x06], {}⟩ = .ok (.decErr [0x90, 0x21, 0x50, 0x06]) ∧
    decode ⟨.rsp, [0x02, 0x21, 0x50], {}⟩ = .ok (.dec5021 [0x02, 0x21, 0x50]) ∧
    decode ⟨.rsp, [0x01, 0x02, 0x54], {}⟩ = .ok (.dec5402 [0x01, 0x02, 0x54]) ∧
    decode ⟨.rsp, [0x01, 0x0a, 0x18], {}⟩ = .ok (.dec180A [0x01, 0x0a, 0x18]) ∧
    decode ⟨.rsp, [0x01, 0x34, 0x12], {}⟩ = .ok (.decUnsup [0x01, 0x34, 0x12]) ∧
    decode ⟨.rsp, [0x7f, 0x34, 0x12], {}⟩ = .ok (.decBare [0x7f, 0x34, 0x12]) ∧
    decode ⟨.rsp, [0x81, 0x21], {}⟩ = .error (.responseShort 2) := ⟨rfl, rfl, rfl, rfl, rfl, rfl, rfl⟩

/-- 30_encoding.md R90, R91, R92. -/
theorem test_decode_keys :
    decode ⟨.tblStatus, [0x01], {}⟩ = .ok .status01 ∧ decode ⟨.tblStatus, [0x02], {}⟩ = .ok .status02 ∧
    decode ⟨.tblStatus, [0x81], {}⟩ = .ok .status81 ∧ decode ⟨.tblStatus, [0x82], {}⟩ = .ok .status82 ∧
    decode ⟨.tblStatus, [0x83], {}⟩ = .ok (.statusDefault 0x83) ∧
    decode ⟨.tblError, [0x01], {}⟩ = .ok .error01 ∧ decode ⟨.tblError, [0x02], {}⟩ = .ok .error02 ∧
    decode ⟨.tblError, [0x03], {}⟩ = .ok .error03 ∧ decode ⟨.tblError, [0x04], {}⟩ = .ok .error04 ∧
    decode ⟨.tblError, [0x05], {}⟩ = .ok .error05 ∧ decode ⟨.tblError, [0x06], {}⟩ = .ok .error06 ∧
    decode ⟨.tblError, [0x07], {}⟩ = .ok (.errorDefault 0x07) ∧
    decode ⟨.tblVib, [0x00], {}⟩ = .ok .vib00 ∧ decode ⟨.tblVib, [0x01], {}⟩ = .ok .vib01 ∧
    decode ⟨.tblVib, [0x02], {}⟩ = .ok .vib02 ∧ decode ⟨.tblVib, [0x03], {}⟩ = .ok (.vibDefault 0x03) :=
  ⟨rfl, rfl, rfl, rfl, rfl, rfl, rfl, rfl, rfl, rfl, rfl, rfl, rfl, rfl, rfl, rfl⟩

/-- 30_encoding.md R93. -/
theorem test_decode_rule :
    decode ⟨.tblRule, [0x00, 0x00], { rule := .name "OFF" }⟩ = .ok .ruleOff ∧
    decode ⟨.tblRule, [0x01, 0x00], {}⟩ = .ok .ruleOn ∧
    decode ⟨.tblRule, [0x02, 0x00], {}⟩ = .ok .ruleTemperature ∧
    decode ⟨.tblRule, [0x03, 0x00], {}⟩ = .ok .ruleHumidity ∧
    decode ⟨.tblRule, [0x04, 0x00], {}⟩ = .ok .ruleIlluminance ∧
    decode ⟨.tblRule, [0x05, 0x00], {}⟩ = .ok .ruleBarometricPressure ∧
    decode ⟨.tblRule, [0x06, 0x00], {}⟩ = .ok .ruleSoundNoise ∧
    decode ⟨.tblRule, [0x07, 0x00], {}⟩ = .ok .ruleEtvoc ∧
    decode ⟨.tblRule, [0x08, 0x00], {}⟩ = .ok .ruleVibration ∧
    decode ⟨.tblRule, [0x00, 0x00], { rule := .name "on" }⟩ = .ok (.ruleDefault (.name "on")) ∧
    decode ⟨.tblRule, [0x09, 0x00], {}⟩ = .error .ruleCode :=
  ⟨rfl, rfl, rfl, rfl, rfl, rfl, rfl, rfl, rfl, rfl, rfl⟩

/-- 20_memory.md R63, 30_encoding.md R82; the frame of S1. -/
theorem test_decode_frame :
    decode ⟨.frame, [0x52, 0x42, 0x05, 0x00, 0x01, 0x21, 0x50, 0xe2, 0x4b], {}⟩ =
      .ok (.frame [0x52, 0x42, 0x05, 0x00, 0x01, 0x21, 0x50, 0xe2, 0x4b]) ∧
    decode ⟨.frame, [0x52, 0x42, 0x06, 0x00, 0x01, 0x21, 0x50, 0xe2, 0x4b], {}⟩ = .error .frameLength ∧
    decode ⟨.frame, [0x42, 0x52, 0x05, 0x00, 0x01, 0x21, 0x50, 0xe2, 0x4b], {}⟩ = .error .frameHeader :=
  ⟨rfl, rfl, rfl⟩

/-- The table's numbering puts the first byte lowest (spec/opcode_table.json). -/
theorem test_decode_table_word :
    decodeTableWord 8 0x7 = some (.parse 0 0 (.bytes [])) ∧
    decodeTableWord 24 0x502101 = some .reqRd5021 ∧
    decodeTableWord 24 0x511102 = some (.reqWr5111 0 0 0 0) ∧
    decodeTableWord 16 0x0003 = some .ruleHumidity ∧
    decodeTableWord 16 0x4252 = some (.frame [0x52, 0x42, 0x00, 0x00]) := ⟨rfl, rfl, rfl, rfl, rfl⟩

/-! ## CRC16 -/

/-- 95_test_vectors.md 2.1. -/
theorem test_crc16_vectors :
    outOf (exec (.crc16 []) fresh) = some (.crc 0xFFFF) ∧
    outOf (exec (.crc16 [0x00]) fresh) = some (.crc 0x40BF) ∧
    outOf (exec (.crc16 [0x80]) fresh) = some (.crc 0xE0BE) ∧
    outOf (exec (.crc16 [0xff, 0xff]) fresh) = some (.crc 0x0000) ∧
    outOf (exec (.crc16 (wire 9 0x313233343536373839)) fresh) = some (.crc 0x4B37) := by decide +kernel

/-- 95_test_vectors.md P5: the residue, and the parser untouched. -/
theorem test_crc16_residue :
    outOf (exec (.crc16 (wire 10 0x5242060081215001237a)) fresh) = some (.crc 0x0000) ∧
    parserOf (exec (.crc16 (wire 10 0x5242060081215001237a)) fresh) = some (.idle, 0, 0, 0) := by decide +kernel

/-! ## The Builder (95_test_vectors.md S1 to S3, 2.2) -/

theorem test_bldReq_frames :
    outOf (exec (.bldReq []) fresh) = some (.frame (wire 6 0x52420200b1e8)) ∧
    outOf (exec (.bldReq [0x00]) fresh) = some (.frame (wire 7 0x524203000079b4)) ∧
    outOf (exec (.bldReq [0xaa, 0xbb, 0xcc, 0xdd]) fresh) = some (.frame (wire 10 0x52420600aabbccdd6228)) := by decide +kernel

/-- A payload of 65534 bytes, by its length alone. -/
theorem test_bldReq_too_long :
    errOf (exec (.bldReq (List.replicate 65534 0x00)) fresh) = some (5, 1, 65534, 65533) := by
  show errOf (.next (fresh.endWith (buildRequest _))) = _
  rw [buildRequest, List.length_replicate, if_pos (by decide)]; rfl

theorem test_bldRdlong : outOf (exec .bldRdlong fresh) = some (.frame (wire 9 0x52420500012150e24b)) := by decide +kernel
theorem test_bldRdori : outOf (exec .bldRdori fresh) = some (.frame (wire 9 0x52420500010254fab8)) := by decide +kernel
theorem test_bldRdinfo : outOf (exec .bldRdinfo fresh) = some (.frame (wire 9 0x52420500010a18fc8d)) := by decide +kernel

theorem test_bldWrled_on :
    outOf (exec (.bldWrled (.name "ON") (.str "#0D58C1")) fresh) = some (.frame (wire 14 0x52420a0002115101000d58c1f856)) ∧
    outOf (exec (.bldWrled (.name "ON") .absent) fresh) = some (.frame (wire 14 0x52420a00021151010000000093c5)) ∧
    outOf (exec (.bldWrled (.name "ON") (.num 0x1ABCDEF0)) fresh) = some (.frame (wire 14 0x52420a000211510100bcdef00bc5)) ∧
    outOf (exec (.bldWrled (.name "ON") (.str "#12")) fresh) = some (.frame (wire 14 0x52420a00021151010000001213c8)) := by
  decide +kernel

theorem test_bldWrled_other_rules :
    outOf (exec (.bldWrled (.name "Temperature") (.str "#0D58C1")) fresh) = some (.frame (wire 14 0x52420a000211510200000000d7c5)) ∧
    outOf (exec (.bldWrled (.name "Vibration") .absent) fresh) = some (.frame (wire 14 0x52420a0002115108000000004fc4)) ∧
    outOf (exec (.bldWrled (.name "on") .absent) fresh) = some (.frame (wire 14 0x52420a000211510000000000ae05)) ∧
    outOf (exec (.bldWrled .absent (.str "#FFFFFF")) fresh) = some (.frame (wire 14 0x52420a000211510000000000ae05)) := by
  decide +kernel

/-- 30_encoding.md R86: the request words are the payloads of S1, BLD.RDORI, BLD.RDINFO and S3. -/
theorem test_request_words :
    outOf (exec .reqRd5021 fresh) = some (.frame (wire 9 0x52420500012150e24b)) ∧
    outOf (exec .reqRd5402 fresh) = some (.frame (wire 9 0x52420500010254fab8)) ∧
    outOf (exec .reqRd180A fresh) = some (.frame (wire 9 0x52420500010a18fc8d)) ∧
    outOf (exec (.reqWr5111 0x0001 0x0d 0x58 0xc1) fresh) = some (.frame (wire 14 0x52420a0002115101000d58c1f856)) := by
  decide +kernel

/-! ## INIT (42_parser.md R171) -/

theorem test_init_replaces_the_parser :
    parserOf (exec (.init 0 true 1000) (waiting [0x52, 0x42, 0x06, 0x00] 7 false 0)) = some (.idle, 0, 0, 0) := by decide +kernel

theorem test_init_adds_a_link :
    (match exec (.init 2 true 5) fresh with
      | .next t => t.parsers
      | .fault _ => []
      | .refused _ => []) = [(0, Parser.fresh true 1000), (2, Parser.fresh true 5)] := by decide +kernel

/-! ## PARSE -/

/-- Single calls on a fresh parser (95_test_vectors.md 2.3, S4, 42_parser.md R183). -/
theorem test_parse_first_call :
    errOf (feed 5 [0x52, 0x42, 0x00] fresh) = some (1, 2, 3, 4) ∧
    errOf (feed 5 (wire 10 0x5342060081215001237a) fresh) = some (1, 3, 0x4253, 0x4252) ∧
    parserOf (feed 5 (wire 4 0x52420600) fresh) = some (.buffering, 10, 4, 5) ∧
    errOf (feed 5 (wire 5 0x5242010000) fresh) = some (1, 4, 0x0000, 0x7121) ∧
    errOf (feed 5 (wire 8 0x524204000121b51e) fresh) = some (4, 1, 2, 3) ∧
    errOf (feed 5 (wire 10 0x5242060081215002237a) fresh) = some (1, 4, 0x7A23, 0x7B63) ∧
    errOf (feed 5 (wire 11 0x5242060081215001237a00) fresh) = some (3, 1, 11, 10) ∧
    respOf (feed 5 (wire 10 0x5242060081215001237a) fresh) = some (some recordS4) ∧
    parserOf (feed 5 (wire 10 0x5242060081215001237a) fresh) = some (.idle, 0, 0, 0) := by
  and_intros <;> decide +kernel

/-- Single calls on a parser that waits for the rest of S4 (95_test_vectors.md 2.4 A, B, C, D, P2 line 4 and its variant,
42_parser.md R172, 60_exceptions.md R243), and one on a link without a parser (70_reset_and_hazards.md R281). -/
theorem test_parse_later_call :
    parserOf (feed 1400 [] (waiting (wire 4 0x52420600) 500 true 1000)) = some (.buffering, 10, 4, 1400) ∧
    errOf (feed 2400 [] (waiting (wire 4 0x52420600) 1400 true 1000)) = some (1, 2, 0, 4) ∧
    errOf (feed 0 (wire 6 0x81215001237a) (waiting (wire 4 0x52420600) 0 true 0)) = some (1, 3, 0x2181, 0x4252) ∧
    respOf (feed 50 (wire 6 0x81215001237a) (waiting (wire 4 0x52420600) 100 true 10)) = some (some recordS4) ∧
    respOf (feed 1000000000000 (wire 6 0x81215001237a) (waiting (wire 4 0x52420600) 0 false 0)) = some (some recordS4) ∧
    errOf (feed 1999 (wire 4 0x5001237a) (waiting (wire 6 0x524206008121) 999 true 1000)) = some (1, 3, 0x0150, 0x4252) ∧
    respOf (feed 1998 (wire 4 0x5001237a) (waiting (wire 6 0x524206008121) 999 true 1000)) = some (some recordS4) ∧
    errOf (exec (.parse 0 5000 (.array [.int 256])) (waiting (wire 4 0x52420600) 0 true 1000)) = some (1, 1, 0, 0) ∧
    parserOf (exec (.parse 0 5000 .other) (waiting (wire 4 0x52420600) 0 true 1000)) = some (.buffering, 10, 4, 0) ∧
    respOf (exec (.parse 3 0 (.bytes [])) fresh) = none := by
  and_intros <;> decide +kernel

/-! ## Reserved codes -/

theorem test_reserved_op : errOf (exec (.hostopReserved 0xa) fresh) = some (6, 1, 10, 0) := by decide +kernel

/-! ## The decode arms (95_test_vectors.md 2.5) -/

theorem test_decErr :
    respOf (exec (.decErr [0x81, 0x21, 0x50, 0x07]) fresh) = some (some ⟨true, some
      { statusCode := 0x81, status := .readError, address := 0x5021, body := .errRsp 0x07 none }⟩) ∧
    respOf (exec (.decErr [0x90, 0x21, 0x50, 0x06]) fresh) = some (some ⟨true, some
      { statusCode := 0x90, status := .unknown, address := 0x5021, body := .errRsp 0x06 (some .busy) }⟩) := by decide +kernel

theorem test_decErr_short : errOf (exec (.decErr [0x81, 0x21, 0x50]) fresh) = some (4, 1, 3, 4) := by decide +kernel

/-- The signed and boundary values: the fields as integers. -/
theorem test_dec5021_signed :
    (match exec (.dec5021 payloadSigned) fresh with
      | .next t => (t.resp.bind Resp.record).map fun d => match d.body with
        | .d5021 x => [x.raw .id, x.raw .temperature, x.raw .humidity, x.raw .illuminance, x.raw .barometricPressure,
            x.raw .soundNoise, x.raw .etvoc, x.raw .eco2, x.raw .discomfortIndex, x.raw .heatStroke,
            x.raw .spectralIntensity, x.raw .seismicIntensity]
        | .errRsp _ _ => []
        | .d5402 _ => []
        | .d180A _ => []
        | .bare => []
      | .fault _ => none
      | .refused _ => none) =
    some [255, -1234, 10000, -1, -1, 32767, -32768, 2000, 8000, -50, 1234, -4321] := by decide +kernel

/-- S5 (1833/100), and one byte short. -/
theorem test_dec5021_s5 :
    (sensorData payloadS5).raw .temperature = 1833 ∧ scaled 1833 (fieldScale .temperature) = 1833 / 100 ∧
    (sensorData payloadS5).raw .barometricPressure = 1002494 ∧ (sensorData payloadS5).raw .eco2 = 400 ∧
    errOf (exec (.dec5021 (wire 30 0x01215001c40988132c0102760f0094110a00c201581bd007030000000000)) fresh) = some (4, 1, 30, 31) := by
  refine ⟨by decide +kernel, by norm_num [scaled, fieldScale], by decide +kernel, by decide +kernel, by decide +kernel⟩

theorem test_dec5402 :
    respOf (exec (.dec5402 [0x01, 0x02, 0x54, 0xff]) fresh) = some (some ⟨true, some
      { statusCode := 0x01, status := .readOk, address := 0x5402, body := .d5402 255 }⟩) ∧
    errOf (exec (.dec5402 [0x01, 0x02, 0x54]) fresh) = some (4, 1, 3, 4) := by decide +kernel

theorem test_dec180A :
    ((deviceInfo (wire 38 0x010a18324a4349452d42553031303132334d593030303130312e303241302e31304f4d524f4e)).model.map fun b =>
        Char.ofNat b.toNat) = "2JCIE-BU01".toList ∧
    ((deviceInfo (wire 38 0x010a18324a4349452d42553031303132334d593030303130312e303241302e31304f4d524f4e)).hardwareVersion.map
        fun b => Char.ofNat b.toNat) = "A0.10".toList ∧
    errOf (exec (.dec180A (List.replicate 37 0x00)) fresh) = some (4, 1, 37, 38) := by decide +kernel

theorem test_decUnsup :
    errOf (exec (.decUnsup [0x01, 0x34, 0x12]) fresh) = some (2, 1, 0x1234, 0x01) ∧
    respOf (exec (.decUnsup [0x01, 0x34, 0x12]) fresh) = some none := by decide +kernel

theorem test_decBare :
    respOf (exec (.decBare [0x7f, 0x34, 0x12]) fresh) = some (some ⟨true, some
      { statusCode := 0x7f, status := .unknown, address := 0x1234, body := .bare }⟩) := by decide +kernel

/-! ## FRAME (42_parser.md R180): the frames of S4 and of 2.3 -/

theorem test_frame :
    respOf (exec (.frame (wire 10 0x5242060081215001237a)) State.reset) = some (some recordS4) ∧
    errOf (exec (.frame (wire 10 0x5242060081215002237a)) State.reset) = some (1, 4, 0x7A23, 0x7B63) := by decide +kernel

/-! ## The lookup tables (30_encoding.md R90 to R93) -/

theorem test_table_rows :
    outOf (exec .status82 fresh) = some (.status .writeError) ∧
    outOf (exec (.statusDefault 0x80) fresh) = some (.status .unknown) ∧
    outOf (exec .error04 fresh) = some (.error (some .lengthError)) ∧
    outOf (exec (.errorDefault 0x00) fresh) = some (.error none) ∧
    outOf (exec .vib01 fresh) = some (.vib .vibrationDetected) ∧
    outOf (exec .ruleBarometricPressure fresh) = some (.code 0x0005) ∧
    outOf (exec (.ruleDefault (.index 9)) fresh) = some (.code 0x0000) := by decide +kernel

/-! ## Steps -/

/-- Each kind of word, placed right after reset, is run by the very next step. -/
theorem test_step_runs_the_placed_word :
    outOf (step (State.reset.withFetchWord 8 0x3)) = some (.frame (wire 9 0x52420500012150e24b)) ∧
    outOf (step (State.reset.withFetchWord 16 0x0008)) = some (.code 0x0008) ∧
    errOf (step (State.reset.withFetchWord 24 0x123401)) = some (2, 1, 0x1234, 0x01) ∧
    errOf (step (State.reset.withFetchWord 16 0x4252)) = some (1, 4, 0x0000, 0xE1BC) := by decide +kernel

theorem test_step_waits : step State.reset = .next State.reset := rfl

/-! ## Witnesses: the hypotheses of the statements are met -/

theorem crc16_out {bs : Bytes} {c : Half} (h : crc16 bs = c) (s : State) :
    exec (.crc16 bs) s = .next (s.withResult (.crc c)) := by
  rw [← h]; rfl

theorem test_witness_decodeOfEncode : (Instr.hostopReserved 0xf).wellFormed = true ∧
    (Instr.decErr [0x80, 0x00, 0x00]).wellFormed = true ∧ (Instr.frame (wire 9 0x52420500012150e24b)).wellFormed = true := by
  decide +kernel

theorem test_witness_encodeOfDecode : decode ⟨.hostop, [0x03], {}⟩ = .ok .bldRdlong := rfl

theorem test_witness_decodedIsWellFormed : decode ⟨.tblStatus, [0x83], {}⟩ = .ok (.statusDefault 0x83) := rfl

/-- Each clause of StepRunsThePresentedOperation. -/
theorem test_witness_stepRuns :
    ((State.reset.withFetchWord 8 0x3).unitWord = none ∧ (State.reset.withFetchWord 8 0x3).pending = [{ op := 3 }] ∧
      decode (HostOp.word { op := 3 }) = .ok .bldRdlong) ∧
    (State.reset.unitWord = none ∧ State.reset.pending = []) ∧
    ((State.reset.withFetchWord 16 0x0003).unitWord = some ⟨.tblRule, [0x03, 0x00], {}⟩ ∧
      decode ⟨.tblRule, [0x03, 0x00], {}⟩ = .ok .ruleHumidity) ∧
    decode ⟨.rsp, [0x81, 0x21], {}⟩ = .error (.responseShort 2) ∧
    (decode ⟨.req, [0x01, 0x11, 0x51], {}⟩ = .error .requestWord ∧ ∀ n, DecodeError.requestWord ≠ .responseShort n) :=
  ⟨⟨rfl, rfl, rfl⟩, ⟨rfl, rfl⟩, ⟨rfl, rfl⟩, rfl, rfl, by simp⟩

theorem test_witness_hostCodes : 8 ≤ (8#4).toNat ∧ 8 ≤ (15#4).toNat := by decide

/-- Each clause of ResponseDispatchOrder, at the least and greatest status. -/
theorem test_witness_dispatchOrder :
    (3 ≤ [0x80, 0x21, 0x50].length ∧ 128 ≤ (byteAt [0x80, 0x21, 0x50] 0).toNat) ∧
    ((byteAt [0x7f, 0x21, 0x50] 0).toNat < 128 ∧
      (byteAt [0x7f, 0x21, 0x50] 1).toNat + 256 * (byteAt [0x7f, 0x21, 0x50] 2).toNat = 0x5021) ∧
    (byteAt [0x00, 0x02, 0x54] 1).toNat + 256 * (byteAt [0x00, 0x02, 0x54] 2).toNat = 0x5402 ∧
    (byteAt [0x01, 0x0a, 0x18] 1).toNat + 256 * (byteAt [0x01, 0x0a, 0x18] 2).toNat = 0x180A ∧
    (byteAt [0x01, 0x22, 0x50] 1).toNat + 256 * (byteAt [0x01, 0x22, 0x50] 2).toNat ∉ [0x5021, 0x5402, 0x180A] := by decide

theorem test_witness_buildRequest : (List.replicate 65533 (0x00 : Byte)).length ≤ 65533 ∧
    65533 < (List.replicate 65534 (0x00 : Byte)).length := by
  rw [List.length_replicate, List.length_replicate]; decide

theorem test_witness_writeLed : resolveColor (.str "#0D58C1") = some 0x0D58C1 ∧ resolveColor .absent = some 0 := by decide +kernel

theorem test_witness_displayRuleCodes : "on" ∉ ["OFF", "ON", "Temperature", "Humidity", "Illuminance", "Barometric Pressure",
    "Sound Noise", "eTVOC", "Vibration"] := by decide

/-- Each clause of ColourForms: the digits at the ends of their ranges, the characters beside them, and a second #. -/
theorem test_witness_colourForms :
    (0 : Int) ≤ 0 ∧ (-1 : Int) < 0 ∧
    (['0', '9', 'A', 'F', 'a', 'f'] ≠ [] ∧ ∀ c ∈ ['0', '9', 'A', 'F', 'a', 'f'], isHexDigit c) ∧
    (∀ c ∈ ['/', ':', '@', 'G', '`', 'g', '#'], ¬ isHexDigit c) ∧
    (['1', 'g'].head? ≠ some '#' ∧ ∃ c ∈ ['1', 'g'], ¬ isHexDigit c) ∧
    resolveColor .absent = resolveColor (.num 0) ∧ resolveColor .fractional = none := by
  refine ⟨by decide, by decide, ⟨by decide, fun c hc => ?_⟩, fun c hc => ?_, ⟨by decide, 'g', by simp, by decide⟩, rfl, rfl⟩ <;>
    fin_cases hc <;> decide

/-- S3 and 95_test_vectors.md 2.2: #0D58C1 and #12 are these numbers; a letter's case makes no difference (R106). -/
theorem test_hexValue : hexValue "0D58C1".toList = 0x0D58C1 ∧ hexValue "0d58c1".toList = 0x0D58C1 ∧ hexValue "12".toList = 0x12 := by
  decide

theorem test_witness_pseudoOperations : resolveColor (.num 0x1ABCDEF0) = some 0x1ABCDEF0 := by decide

theorem test_witness_statusTable : ∃ (t : State) (r : Resp) (d : DecodedRecord),
    exec (armInstr .bare [0x02, 0x11, 0x51]) State.reset = .next t ∧ t.resp = some r ∧ r.record = some d :=
  ⟨_, _, _, rfl, rfl, rfl⟩

theorem test_witness_errorTable : 4 ≤ [0x81, 0x21, 0x50, 0x07].length := by decide

theorem test_witness_vibrationTable : 31 ≤ (List.replicate 31 (0x00 : Byte)).length := by decide

theorem test_witness_tableRows : (0x80 : Byte) ∉ [0x01, 0x02, 0x81, 0x82] ∧ 7 ≤ (0x07 : Byte).toNat ∧
    3 ≤ (0x03 : Byte).toNat ∧ resolveRule (.index 9) = none ∧ resolveRule .absent = none := by decide

/-- ErrorResponseRecord and OrientationRecord (4 bytes), SensorRecordFields (31), DeviceInformationRanges (38),
UnsupportedAddressRaises and BareRecord (3). -/
theorem test_witness_decodeArms : 4 ≤ [0x81, 0x21, 0x50, 0x01].length ∧ 4 ≤ [0x01, 0x02, 0x54, 0xff].length ∧
    31 ≤ payloadSigned.length ∧ 38 ≤ (List.replicate 38 (0x00 : Byte)).length ∧
    (3 ≤ [0x01, 0x34, 0x12].length ∧ byteAt [0x01, 0x34, 0x12] 0 = 0x01) ∧ 3 ≤ [0x02, 0x11, 0x51].length := by decide +kernel

/-- Each clause of ShortPayloadsRaise, one byte below the need. -/
theorem test_witness_shortPayloads : (List.replicate 3 (0x00 : Byte)).length < 4 ∧ (List.replicate 30 (0x00 : Byte)).length < 31 ∧
    (List.replicate 37 (0x00 : Byte)).length < 38 ∧ (List.replicate 2 (0x00 : Byte)).length < 3 := by decide

/-- Each clause of WholeFrameIsValidatedAndDecoded: the frame of S4, the frame of the empty payload, and the frame of S4 with
one payload byte changed. -/
theorem test_witness_wholeFrame :
    (4 ≤ (wire 10 0x5242060081215001237a).length ∧ crc16 ((wire 10 0x5242060081215001237a).take 8) = 0x7A23 ∧
      (0x7A23 : Half) = byteAt (wire 10 0x5242060081215001237a) 9 ++ byteAt (wire 10 0x5242060081215001237a) 8 ∧
      decode ⟨.rsp, ((wire 10 0x5242060081215001237a).take 8).drop 4, {}⟩ = .ok (.decErr [0x81, 0x21, 0x50, 0x01])) ∧
    (crc16 ((wire 6 0x52420200b1e8).take 4) = 0xe8b1 ∧
      (0xe8b1 : Half) = byteAt (wire 6 0x52420200b1e8) 5 ++ byteAt (wire 6 0x52420200b1e8) 4 ∧
      (wire 6 0x52420200b1e8).length < 9) ∧
    (crc16 ((wire 10 0x5242060081215002237a).take 8) = 0x7B63 ∧
      (0x7B63 : Half) ≠ byteAt (wire 10 0x5242060081215002237a) 9 ++ byteAt (wire 10 0x5242060081215002237a) 8) := by
  refine ⟨⟨by decide, by decide +kernel, by decide +kernel, rfl⟩, by decide +kernel, by decide +kernel⟩

/-- Frames that meet the hypotheses of WholeFrameEndsWithItsRecord, of the arms ERR, 5021 (37 bytes), 5402 and BARE
(95_test_vectors.md 2.5). -/
theorem test_witness_wholeFrameEnds :
    ∀ f ∈ [wire 10 0x52420600902150066784,
        wire 37 0x52422100012150ff2efb1027ffffffffffffff7f0080d007401fceff02d20455551fef4b15,
        wire 10 0x52420600010254ff7830, wire 9 0x524205007f34120cf2],
      9 ≤ f.length ∧ crc16 (f.take (f.length - 2)) = byteAt f (f.length - 1) ++ byteAt f (f.length - 2) ∧
      ((128 ≤ (byteAt f 4).toNat ∧ 10 ≤ f.length) ∨
        ((byteAt f 4).toNat < 128 ∧ (byteAt f 5).toNat + 256 * (byteAt f 6).toNat = 0x5021 ∧ 37 ≤ f.length) ∨
        ((byteAt f 4).toNat < 128 ∧ (byteAt f 5).toNat + 256 * (byteAt f 6).toNat = 0x5402 ∧ 10 ≤ f.length) ∨
        ((byteAt f 4).toNat < 128 ∧ (byteAt f 5).toNat + 256 * (byteAt f 6).toNat ∉ [0x5021, 0x5402, 0x180A] ∧
          byteAt f 4 ≠ 0x01)) := by
  decide +kernel

/-- The same for the arm 180A, 44 bytes. -/
theorem test_witness_wholeFrameEnds180A :
    (fun f : Bytes => 9 ≤ f.length ∧ crc16 (f.take (f.length - 2)) = byteAt f (f.length - 1) ++ byteAt f (f.length - 2) ∧
      (byteAt f 4).toNat < 128 ∧ (byteAt f 5).toNat + 256 * (byteAt f 6).toNat = 0x180A ∧ 44 ≤ f.length)
    (wire 44 0x52422800010a18324a4349452d42553031303132334d593030303130312e303241302e31304f4d524f4eec6a) := by
  decide +kernel

/-- ParseIncompleteFrame, from IDLE and from BUFFERING, and after staleness. -/
theorem test_witness_parseIncomplete :
    (fresh.parser 0 = some (Parser.fresh true 1000) ∧ AfterStaleness (Parser.fresh true 1000) 5 (Parser.fresh true 1000) ∧
      Accepts (Parser.fresh true 1000) [0x52, 0x42, 0x06, 0x00] [0x52, 0x42, 0x06, 0x00] 10 ∧ 4 < 10) ∧
    (AfterStaleness ⟨[0x52, 0x42, 0x06, 0x00], 10, 0, true, 1000⟩ 999 ⟨[0x52, 0x42, 0x06, 0x00], 10, 0, true, 1000⟩ ∧
      Accepts ⟨[0x52, 0x42, 0x06, 0x00], 10, 0, true, 1000⟩ [] [0x52, 0x42, 0x06, 0x00] 10) ∧
    (AfterStaleness ⟨[0x52, 0x42, 0x06, 0x00], 10, 0, true, 1000⟩ 1000 ⟨[], 0, 0, true, 1000⟩ ∧
      Accepts ⟨[], 0, 0, true, 1000⟩ [0x52, 0x42, 0x06, 0x00] [0x52, 0x42, 0x06, 0x00] 10) := by decide +kernel

/-- Each clause of ParseCompleteFrame: a bad checksum, a good one with a payload, a good one with the empty payload. -/
theorem test_witness_parseComplete :
    (Accepts (Parser.fresh true 1000) (wire 10 0x5242060081215002237a) (wire 10 0x5242060081215002237a) 10 ∧
      exec (.crc16 ((wire 10 0x5242060081215002237a).take 8)) fresh = .next (fresh.withResult (.crc 0x7B63)) ∧
      (0x7B63 : Half) ≠ 0x7A23) ∧
    (Accepts (Parser.fresh true 1000) (wire 10 0x5242060081215001237a) (wire 10 0x5242060081215001237a) 10 ∧
      exec (.crc16 ((wire 10 0x5242060081215001237a).take 8)) fresh = .next (fresh.withResult (.crc 0x7A23)) ∧
      decode ⟨.rsp, ((wire 10 0x5242060081215001237a).take 8).drop 4, {}⟩ = .ok (.decErr [0x81, 0x21, 0x50, 0x01])) ∧
    (Accepts (Parser.fresh true 1000) (wire 6 0x52420200b1e8) (wire 6 0x52420200b1e8) 6 ∧
      exec (.crc16 ((wire 6 0x52420200b1e8).take 4)) fresh = .next (fresh.withResult (.crc 0xe8b1)) ∧
      (0xe8b1 : Half) = byteAt (wire 6 0x52420200b1e8) 5 ++ byteAt (wire 6 0x52420200b1e8) 4 ∧ 6 < 9) := by
  refine ⟨⟨by decide +kernel, crc16_out (by decide +kernel) _, by decide⟩,
    ⟨by decide +kernel, crc16_out (by decide +kernel) _, rfl⟩,
    by decide +kernel, crc16_out (by decide +kernel) _, by decide +kernel, by decide⟩

theorem test_witness_parseErrorResponse :
    fresh.parser 0 = some (Parser.fresh true 1000) ∧ (Parser.fresh true 1000).explen = 0 ∧ 128 ≤ (0x81 : Byte).toNat ∧
    exec (.crc16 [0x52, 0x42, 0x06, 0x00, 0x81, 0x21, 0x50, 0x01]) fresh = .next (fresh.withResult (.crc 0x7A23)) :=
  ⟨rfl, rfl, by decide, crc16_out (by decide +kernel) _⟩

/-- HeaderMismatchRaises and ShortStartRaises, on a fresh parser and on one that has just gone stale. -/
theorem test_witness_frameStarts :
    (fresh.parser 0 = some (Parser.fresh true 1000) ∧ AfterStaleness (Parser.fresh true 1000) 5 (Parser.fresh true 1000) ∧
      (Parser.fresh true 1000).explen = 0 ∧ 4 ≤ [0x53, 0x42, 0x06, 0x00].length ∧
      ¬ (byteAt [0x53, 0x42, 0x06, 0x00] 0 = 0x52 ∧ byteAt [0x53, 0x42, 0x06, 0x00] 1 = 0x42)) ∧
    (AfterStaleness ⟨[0x52, 0x42, 0x06, 0x00], 10, 1400, true, 1000⟩ 2400 ⟨[], 0, 0, true, 1000⟩ ∧
      [0x52, 0x42, 0x00].length < 4) := by decide +kernel

/-- OverrunRaises, by a frame start and by a continuation. -/
theorem test_witness_overrun :
    (fresh.parser 0 = some (Parser.fresh true 1000) ∧
      Accepts (Parser.fresh true 1000) (wire 11 0x5242060081215001237a00) (wire 11 0x5242060081215001237a00) 10 ∧
      10 < (wire 11 0x5242060081215001237a00).length) ∧
    (AfterStaleness ⟨wire 7 0x52420600010254, 10, 0, false, 0⟩ 9 ⟨wire 7 0x52420600010254, 10, 0, false, 0⟩ ∧
      Accepts ⟨wire 7 0x52420600010254, 10, 0, false, 0⟩ (wire 4 0x01f9b052) (wire 11 0x5242060001025401f9b052) 10) := by
  decide +kernel

theorem test_witness_inputType : fresh.parser 0 = some (Parser.fresh true 1000) ∧ NotBytes .other ∧
    NotBytes (.array [.int 0, .int 256]) ∧ NotBytes (.wrapper [.int (-1)]) ∧ NotBytes (.array [.notInteger]) :=
  ⟨rfl, .inl rfl, .inr ⟨_, .inl rfl, .int 256, by simp, .inr ⟨256, rfl, by decide⟩⟩,
    .inr ⟨_, .inr rfl, .int (-1), by simp, .inr ⟨-1, rfl, by decide⟩⟩, .inr ⟨_, .inl rfl, .notInteger, by simp, .inl rfl⟩⟩

theorem test_witness_unconstructed : State.reset.parser 1 = none := rfl

theorem test_witness_staleness :
    (waiting [0x52, 0x42, 0x06, 0x00] 0 true 1000).parser 0 = some ⟨[0x52, 0x42, 0x06, 0x00], 10, 0, true, 1000⟩ ∧
    (Parser.mk [0x52, 0x42, 0x06, 0x00] 10 0 true 1000).overdue 1000 := by decide +kernel

/-- DeclaredLengthBelowTwoFailsTheChecksum, with the declared lengths 0 and 1. -/
theorem test_witness_declaredLength :
    (byteAt [0x52, 0x42, 0x00, 0x00] 0 = 0x52 ∧ byteAt [0x52, 0x42, 0x00, 0x00] 1 = 0x42 ∧
      (byteAt [0x52, 0x42, 0x00, 0x00] 2).toNat ≤ 1 ∧ byteAt [0x52, 0x42, 0x00, 0x00] 3 = 0 ∧
      [0x52, 0x42, 0x00, 0x00].length = (byteAt [0x52, 0x42, 0x00, 0x00] 2).toNat + 4) ∧
    ((byteAt [0x52, 0x42, 0x01, 0x00, 0x00] 2).toNat ≤ 1 ∧
      [0x52, 0x42, 0x01, 0x00, 0x00].length = (byteAt [0x52, 0x42, 0x01, 0x00, 0x00] 2).toNat + 4) ∧
    AfterStaleness (Parser.fresh true 1000) 5 (Parser.fresh true 1000) ∧ fresh.parser 0 = some (Parser.fresh true 1000) := by
  decide +kernel

theorem test_witness_builtFrames : fresh.parser 0 = some (Parser.fresh true 1000) ∧ (Parser.fresh true 1000).explen = 0 ∧
    [0x02, 0x11, 0x51].length ≤ 65533 ∧ decode ⟨.rsp, [0x02, 0x11, 0x51], {}⟩ = .ok (.decBare [0x02, 0x11, 0x51]) ∧
    ([] : Bytes).length < 3 := ⟨rfl, rfl, by decide, rfl, by decide⟩

/-- The frame of S4 in three chunks, an empty one in the middle, on the timeout of P2. -/
theorem test_witness_fragmentation :
    fresh.parser 0 = some (Parser.fresh true 1000) ∧ (Parser.fresh true 1000).explen = 0 ∧
    4 ≤ [0x52, 0x42, 0x06, 0x00].length ∧ (wire 6 0x81215001237a) ≠ [] ∧
    byteAt [0x52, 0x42, 0x06, 0x00] 0 = 0x52 ∧ byteAt [0x52, 0x42, 0x06, 0x00] 1 = 0x42 ∧
    ([0x52, 0x42, 0x06, 0x00] ++ (([(999, [])] : List (Nat × Bytes)).map Prod.snd).flatten ++ wire 6 0x81215001237a).length =
      (byteAt [0x52, 0x42, 0x06, 0x00] 2).toNat + 256 * (byteAt [0x52, 0x42, 0x06, 0x00] 3).toNat + 4 ∧
    ((0 :: ([(999, [])] : List (Nat × Bytes)).map Prod.fst) ++ [1998]).IsChain
      (fun a b : Nat => (b : Int) - (a : Int) < ((Parser.fresh true 1000).ttl : Int)) := by
  refine ⟨rfl, rfl, by decide, by decide, rfl, rfl, by decide, ?_⟩
  simp [List.isChain_cons_cons, Parser.fresh]

/-- The invariant holds of a state with a partial frame, which steps. -/
theorem test_witness_invariant :
    (waiting [0x52, 0x42, 0x06, 0x00] 0 true 1000).Inv ∧
    ∃ t, step ((waiting [0x52, 0x42, 0x06, 0x00] 0 true 1000).withFetchWord 8 0x3) = .next t :=
  ⟨⟨by decide, by decide +kernel, by intro r hr; cases hr; rfl, .inl ⟨rfl, rfl, rfl, rfl⟩⟩, _, rfl⟩

theorem test_witness_onlyInitAndParse : (∃ t, exec .bldRdlong fresh = .next t) ∧
    (∀ (k : Nat) (e : Bool) (ttl : Nat), Instr.bldRdlong ≠ .init k e ttl) ∧
    (∀ (k now : Nat) (ch : ChunkOperand), Instr.bldRdlong ≠ .parse k now ch) := ⟨⟨_, rfl⟩, by simp, by simp⟩

theorem test_witness_otherLinks : (∃ t, exec (.init 2 true 5) fresh = .next t) ∧ linkOf (.init 2 true 5) ≠ some 0 :=
  ⟨⟨_, rfl⟩, by decide⟩

theorem test_witness_timeout : (∃ t, feed 5 [0x52, 0x42, 0x06, 0x00] fresh = .next t) ∧
    fresh.parser 0 = some (Parser.fresh true 1000) ∧
    (∀ (e : Bool) (ttl : Nat), Instr.parse 0 5 (.bytes [0x52, 0x42, 0x06, 0x00]) ≠ .init 0 e ttl) := ⟨⟨_, rfl⟩, rfl, by simp⟩

/-- Two states that differ in another link, in RESP and in the log. -/
theorem test_witness_ownParser :
    fresh.parser 0 = State.parser { fresh with parsers := [(0, Parser.fresh true 1000), (1, Parser.fresh false 0)],
                                               resp := none, faultLog := [.inputType] } 0 ∧
    (∃ t, feed 5 [0x52, 0x42, 0x06, 0x00] fresh = .next t) ∧
    (∃ t, feed 5 [0x52, 0x42, 0x06, 0x00]
      { fresh with parsers := [(0, Parser.fresh true 1000), (1, Parser.fresh false 0)], resp := none,
                   faultLog := [.inputType] } = .next t) := ⟨rfl, ⟨_, rfl⟩, ⟨_, rfl⟩⟩

theorem test_witness_exceptions : fresh.Inv ∧ ∃ t, feed 5 [] fresh = .next t ∧ t.err ≠ 0 :=
  ⟨⟨by decide, by decide +kernel, by intro r hr; cases hr; rfl, .inl ⟨rfl, rfl, rfl, rfl⟩⟩, _, rfl, by decide⟩

/-- Both sides of AtMostOneExceptionPerOperation and of BufferingExactlyAfterIncomplete. -/
theorem test_witness_ends : fresh.Inv ∧ (∃ t, feed 5 [] fresh = .next t) ∧ (∃ t, feed 5 [0x52, 0x42, 0x06, 0x00] fresh = .next t) :=
  ⟨test_witness_exceptions.1, ⟨_, rfl⟩, ⟨_, rfl⟩⟩

/-- Each clause of HostReachesTheDecoderThroughParseAlone: a queue with BLD.RDLONG at its head steps, and OP 3 is not PARSE. -/
theorem test_witness_hostReaches : (State.reset.withFetchWord 8 0x3).unitWord = none ∧
    (State.reset.withFetchWord 8 0x3).pending = [{ op := 3 }] ∧ (3 : BitVec 4) ≠ 7 ∧
    ∃ t, step (State.reset.withFetchWord 8 0x3) = .next t := ⟨rfl, rfl, by decide, _, rfl⟩

theorem test_witness_reservedCodes : 8 ≤ (8#4).toNat ∧ 8 ≤ (15#4).toNat := by decide

end Sys2Proof.Tests
end

/-! The state and its invariant (10_state.md): what every operation keeps, which parsers it reaches, and how it ends. -/

namespace Sys2Proof.Machine

/-! ## The end of an operation -/

/-- No end of an operation reaches a parser. -/
theorem Ended.parser {s t : State} (h : Ended s t) (k : Nat) : t.parser k = s.parser k := by
  rw [State.parser, State.parser, h.parsers]

/-- An end leaves the exception outputs 0 and the log alone, or takes one exception (10_state.md R31). -/
theorem Ended.normal_or_raised {s t : State} (h : Ended s t) :
    (t.err = 0 ∧ t.errcause = 0 ∧ t.errinfo0 = 0 ∧ t.errinfo1 = 0 ∧ t.faultLog = s.faultLog) ∨
    ∃ e : Exn, t = s.raise e := by
  cases h with
  | finish o => exact .inl ⟨rfl, rfl, rfl, rfl, rfl⟩
  | respond r hr => exact .inl ⟨rfl, rfl, rfl, rfl, rfl⟩
  | raise e => exact .inr ⟨e, rfl⟩

theorem State.raise_outputsInv (s : State) (e : Exn) : (s.raise e).OutputsInv :=
  .inr ⟨e, by simp, rfl, rfl, rfl, rfl, rfl, rfl⟩

/-- The exception outputs after an end agree, whatever they were before it (60_exceptions.md R254). -/
theorem Ended.outputsInv {s t : State} (h : Ended s t) : t.OutputsInv := by
  rcases h.normal_or_raised with ⟨h0, h1, h2, h3, _⟩ | ⟨e, rfl⟩
  · exact .inl ⟨h0, h1, h2, h3⟩
  · exact State.raise_outputsInv s e

/-- RESP after an end is the one before it, the one written, or none (10_state.md R30). -/
theorem Ended.respInv {s t : State} (h : Ended s t) (hs : ∀ r ∈ s.resp, r.Inv) : ∀ r ∈ t.resp, r.Inv := by
  cases h with
  | finish o => exact hs
  | respond r hr => intro q hq; cases hq; exact hr
  | raise e => intro q hq; cases hq

theorem Ended.inv {s t : State} (h : Ended s t) (hs : s.Inv) : t.Inv := by
  obtain ⟨hrise, hpars, hresp, -⟩ := hs
  exact ⟨h.parsers ▸ hrise, h.parsers ▸ hpars, h.respInv hresp, h.outputsInv⟩

/-! ## The invariant (10_state.md R26, R30, R31) -/

theorem State.parser_inv {s : State} {k : Nat} {p : Parser} (hs : s.Inv) (h : s.parser k = some p) : p.Inv := by
  obtain ⟨-, hpars, -, -⟩ := hs
  exact hpars (k, p) (parserAt_mem h)

/-- Writing a parser that meets its invariant keeps that of the state. -/
theorem State.setParser_inv {s : State} (hs : s.Inv) (k : Nat) {p : Parser} (hp : p.Inv) : (s.setParser k p).Inv := by
  obtain ⟨hrise, hpars, hresp, hout⟩ := hs
  refine ⟨putParser_rising k p hrise, fun e he => ?_, hresp, hout⟩
  rcases mem_putParser he with rfl | he
  · exact hp
  · exact hpars e he

/-- INIT, with either form of its timeout, up to the draw counter. -/
theorem State.setParser_respond_incomplete_inv {s : State} (hs : s.Inv) (k : Nat) (e : Bool) (ttl : Nat) :
    ((s.setParser k (Parser.fresh e ttl)).respond Resp.incomplete).Inv :=
  (Ended.respond Resp.incomplete rfl).inv (State.setParser_inv hs k (fresh_inv e ttl))

theorem exec_inv {i : Instr} {s t : State} (hs : s.Inv) (h : exec i s = .next t) : t.Inv := by
  cases execCase_of_next h with
  | plain _ he => exact he.inv hs
  | initTtl k ttl => exact State.setParser_respond_incomplete_inv hs k true ttl
  | initNoTtl k ttl => exact State.setParser_respond_incomplete_inv hs k false (Config.freeTtl s.draws)
  | inputType _ _ => exact (Ended.raise _).inv hs
  | parse hp _ he => exact he.inv (State.setParser_inv hs _ (feed_inv (State.parser_inv hs hp) _ _))

/-- A rejected word that has a next state at all raises (43_decode.md R202). -/
theorem rejectWord_ended {e : DecodeError} {s t : State} (h : rejectWord e s = .next t) : Ended s t := by
  cases e with
  | responseShort len => cases h; exact .raise _
  | hostWord => cases h
  | requestWord => cases h
  | tableKey => cases h
  | ruleCode => cases h
  | frameShort => cases h
  | frameHeader => cases h
  | frameLength => cases h

/-- Taking the next word reads the queue and the unit word alone, of which the invariant says nothing. -/
theorem State.fetch_inv {s u : State} {x : Presented} (hs : s.Inv) (h : s.fetch = some (x, u)) : u.Inv := by
  cases hu : s.unitWord with
  | some y => rw [State.fetch_of_unitWord hu] at h; cases h; exact hs
  | none =>
    cases hp : s.pending with
    | nil => rw [State.fetch_of_nothing hu hp] at h; cases h
    | cons o rest => rw [State.fetch_of_pending hu hp] at h; cases h; exact hs

/-- Everything a step that answers can do: wait, perform the word it takes, or reject it. -/
theorem step_cases {s t : State} (h : step s = .next t) :
    (s.fetch = none ∧ t = s) ∨
    (∃ x u i, s.fetch = some (x, u) ∧ decode x = .ok i ∧ exec i u = .next t) ∨
    (∃ x u e, s.fetch = some (x, u) ∧ decode x = .error e ∧ rejectWord e u = .next t) := by
  rw [step] at h
  cases hf : s.fetch with
  | none => simp only [hf] at h; cases h; exact .inl ⟨rfl, rfl⟩
  | some xu =>
    obtain ⟨x, u⟩ := xu
    cases hd : decode x with
    | ok i => simp only [hf, hd] at h; exact .inr (.inl ⟨x, u, i, rfl, hd, h⟩)
    | error e => simp only [hf, hd] at h; exact .inr (.inr ⟨x, u, e, rfl, hd, h⟩)

/-- Settles O46: taking a word leaves the invariant's fields alone, every operation ends in one of the three ways, and a
chunk keeps the invariant of its parser. -/
theorem stepKeepsTheInvariant : Obligations.StepKeepsTheInvariant := by
  intro s t hs h
  rcases step_cases h with ⟨-, rfl⟩ | ⟨x, u, i, hf, -, hx⟩ | ⟨x, u, e, hf, -, hx⟩
  · exact hs
  · exact exec_inv (State.fetch_inv hs hf) hx
  · exact (rejectWord_ended hx).inv (State.fetch_inv hs hf)

/-- Settles O47: the one parser is fresh, RESP is the incomplete marker and the exception outputs are 0. -/
theorem resetMeetsTheInvariant : Obligations.ResetMeetsTheInvariant := by
  refine ⟨List.pairwise_singleton _ _, fun e he => ?_, fun r hr => ?_, .inl ⟨rfl, rfl, rfl, rfl⟩⟩
  · cases List.mem_singleton.mp he; exact fresh_inv false 0
  · cases hr; rfl

/-- Settles O48: the parser of link 0 is the one INIT makes, the rest are the fields of State.reset. -/
theorem resetValues : Obligations.ResetValues :=
  ⟨Parser.fresh false 0, rfl, rfl, rfl, rfl, rfl, rfl, ⟨Resp.incomplete, rfl, rfl, rfl⟩, rfl, rfl, rfl, rfl⟩

/-! ## Which parsers an operation reaches (10_state.md R25, R36, R40) -/

/-- Settles O49: an operation on no link ends with no parser written and no value drawn. -/
theorem onlyInitAndParseWriteParsers : Obligations.OnlyInitAndParseWriteParsers := by
  intro i s t h hinit hparse
  cases execCase_of_next h with
  | plain _ he => exact ⟨he.parsers, he.draws⟩
  | initTtl k ttl => exact absurd rfl (hinit k true ttl)
  | initNoTtl k ttl => exact absurd rfl (hinit k false ttl)
  | inputType _ _ => exact absurd rfl (hparse _ _ _)
  | parse _ _ _ => exact absurd rfl (hparse _ _ _)

/-- Settles O50: INIT and PARSE write the parser of their own link, the other operations none. -/
theorem otherLinksAreUntouched : Obligations.OtherLinksAreUntouched := by
  intro i s t j h hj
  have other : ∀ k p, some k ≠ some j → (s.setParser k p).parser j = s.parser j := fun k p hk =>
    State.parser_setParser_other s p fun hjk => hk (congrArg some hjk.symm)
  cases execCase_of_next h with
  | plain _ he => exact he.parser j
  | initTtl k ttl => exact other k _ hj
  | initNoTtl k ttl => exact other k _ hj
  | inputType _ _ => rfl
  | parse _ _ he => rw [he.parser]; exact other _ _ hj

/-- Settles O51: by O50 only an operation on the parser's link can write it, and of those PARSE keeps the timeout. -/
theorem timeoutIsImmutable : Obligations.TimeoutIsImmutable := by
  intro i s t k p h hp hinit
  by_cases hk : linkOf i = some k
  · cases execCase_of_next h with
    | plain hl _ => cases hl.symm.trans hk
    | initTtl j ttl => cases hk; exact absurd rfl (hinit true ttl)
    | initNoTtl j ttl => cases hk; exact absurd rfl (hinit false ttl)
    | inputType _ _ => exact ⟨p, hp, rfl, rfl⟩
    | parse hq _ he =>
      cases hk
      cases hp.symm.trans hq
      exact ⟨_, by rw [he.parser, State.parser_setParser_same], Parser.feed_timeout p _ _⟩
  · exact ⟨p, by rw [otherLinksAreUntouched i s t k h hk, hp], rfl, rfl⟩

/-! ## At most one exception per operation (60_exceptions.md R241, R253) -/

theorem Exn.errClass_le (e : Exn) : e.errClass ≤ 6 := by cases e <;> simp [Exn.errClass]

theorem Exn.causeCode_bounds (e : Exn) : 1 ≤ e.causeCode ∧ e.causeCode ≤ 4 := by cases e <;> simp [Exn.causeCode]

theorem Ended.at_most_one_exception {s t : State} (h : Ended s t) :
    (t.err = 0 ∧ t.errcause = 0 ∧ t.errinfo0 = 0 ∧ t.errinfo1 = 0 ∧ t.faultLog = s.faultLog) ∨
    (∃ e : Exn, t.faultLog = s.faultLog ++ [e] ∧ t.err = e.errClass ∧ t.errcause = e.causeCode ∧ 1 ≤ t.err ∧ t.err ≤ 6 ∧
      1 ≤ t.errcause ∧ t.errcause ≤ 4) := by
  refine h.normal_or_raised.imp_right ?_
  rintro ⟨e, rfl⟩
  exact ⟨e, rfl, rfl, rfl, e.errClass_pos, e.errClass_le, e.causeCode_bounds⟩

/-- Settles O55: writing a parser leaves the log alone, an operation ends once, and an end raises at most once. -/
theorem atMostOneExceptionPerOperation : Obligations.AtMostOneExceptionPerOperation := by
  intro i s t h
  cases execCase_of_next h with
  | plain _ he => exact he.at_most_one_exception
  | initTtl k ttl => exact .inl ⟨rfl, rfl, rfl, rfl, rfl⟩
  | initNoTtl k ttl => exact .inl ⟨rfl, rfl, rfl, rfl, rfl⟩
  | inputType _ _ => exact (Ended.raise _).at_most_one_exception
  | parse _ _ he => exact he.at_most_one_exception

end Sys2Proof.Machine

/-! What one step does with the word it takes (20_memory.md R65, 43_decode.md R200, 70_reset_and_hazards.md R283). -/

namespace Sys2Proof.Machine

theorem step_of_fetch_none {s : State} (h : s.fetch = none) : step s = .next s := by
  simp only [step, h, State.wait]

theorem step_of_decode_ok {s t : State} {x : Presented} {i : Instr} (hf : s.fetch = some (x, t))
    (hd : decode x = .ok i) : step s = exec i t := by
  simp only [step, hf, hd]

theorem step_of_decode_error {s t : State} {x : Presented} {e : DecodeError} (hf : s.fetch = some (x, t))
    (hd : decode x = .error e) : step s = rejectWord e t := by
  simp only [step, hf, hd]

/-- The registers of R202's exception: class 4, cause 1, the payload's length and the length needed. -/
theorem rejectWord_responseShort (n : Nat) (s : State) :
    rejectWord (.responseShort n) s = .next (s.withError (.payloadLength n 3) 4 1 n 3) := rfl

/-- A short response payload is the one rejected word that is not refused. -/
theorem rejectWord_refused {e : DecodeError} (s : State) (he : ∀ n, e ≠ .responseShort n) :
    rejectWord e s = .refused (.undecodable e) := by
  cases e with
  | responseShort n => exact absurd rfl (he n)
  | hostWord => rfl
  | requestWord => rfl
  | tableKey => rfl
  | ruleCode => rfl
  | frameShort => rfl
  | frameHeader => rfl
  | frameLength => rfl

/-- Settles O4: the unit word is fetched before the queue, the queue from its head, and the fetched word is performed or
rejected on the state without it. -/
theorem stepRunsThePresentedOperation : Obligations.StepRunsThePresentedOperation := by
  refine ⟨fun s o rest i hu hp hd => ?_, fun s hu hp => ?_, fun s x i hu hd => ?_, fun s x n hu hd => ?_,
    fun s x e hu hd he => ?_⟩
  · exact step_of_decode_ok (State.fetch_of_pending hu hp) hd
  · exact step_of_fetch_none (State.fetch_of_nothing hu hp)
  · exact step_of_decode_ok (State.fetch_of_unitWord hu) hd
  · rw [step_of_decode_error (State.fetch_of_unitWord hu) hd, rejectWord_responseShort]
  · rw [step_of_decode_error (State.fetch_of_unitWord hu) hd, rejectWord_refused _ he]

end Sys2Proof.Machine

/-! The words of the instructions (30_encoding.md R80, R84 to R94, 20_memory.md R63): what each format's decoder answers, and
that decoder and encoder agree. -/

namespace Sys2Proof

open Machine

/-- `i` is an instruction of the table, and `w` is its word in the format `f`. -/
structure Instr.HasWord (i : Instr) (f : Format) (w : Bytes) : Prop where
  wellFormed : i.wellFormed = true
  fmt        : (encode i).fmt = f
  word       : (encode i).word = w

/-! ## Host operations (30_encoding.md R80, R81) -/

theorem opCode_cases (op : BitVec 4) :
    op = 0 ∨ op = 1 ∨ op = 2 ∨ op = 3 ∨ op = 4 ∨ op = 5 ∨ op = 6 ∨ op = 7 ∨ 8 ≤ op.toNat := by
  revert op; decide

theorem decodeHostop_reserved {op : BitVec 4} (h : 8 ≤ op.toNat) (l : HostLines) :
    decodeHostop op l = .hostopReserved op := by
  have hne : ∀ c : BitVec 4, c.toNat < 8 → op ≠ c := by rintro c hc rfl; omega
  simp [decodeHostop, hne]

theorem decodeHostop_hasWord (op : BitVec 4) (l : HostLines) : (decodeHostop op l).HasWord .hostop [op.setWidth 8] := by
  rcases opCode_cases op with rfl | rfl | rfl | rfl | rfl | rfl | rfl | rfl | h
  iterate 8 exact ⟨rfl, rfl, rfl⟩
  rw [decodeHostop_reserved h]
  exact ⟨decide_eq_true h, rfl, rfl⟩

/-- A word of format HOSTOP that decodes is one byte, the OP code in its low four bits and its high four bits 0. -/
theorem hostWord_of_decode {w : Bytes} {l : HostLines} {i : Instr} (h : decode ⟨.hostop, w, l⟩ = .ok i) :
    ∃ o : HostOp, w = o.word.word ∧ l = o.lines ∧ i = decodeHostop o.op o.lines := by
  simp only [decode] at h
  split at h
  · rename_i b
    split at h
    · rename_i hb
      cases h
      refine ⟨⟨b.setWidth 4, l⟩, ?_, rfl, rfl⟩
      have : (b.setWidth 4).setWidth 8 = b := BitVec.eq_of_toNat_eq (by simp; omega)
      rw [HostOp.word, this]
    · cases h
  · cases h

/-- A reserved code, beside any lines, is the reserved operation of that code. -/
theorem decode_reservedWord {op : BitVec 4} (h : 8 ≤ op.toNat) (l : HostLines) :
    decode ⟨.hostop, [op.setWidth 8], l⟩ = .ok (.hostopReserved op) := by
  rw [← decodeHostop_reserved h l]
  exact decode_hostOp_word ⟨op, l⟩

/-- Settles O5: each of the codes 0 to 7 is one branch of the decoder, and the codes from 8 on are the last. -/
theorem hostCodesSelectTheOperations : Obligations.HostCodesSelectTheOperations := 
  fun l => ⟨rfl, rfl, rfl, rfl, rfl, rfl, rfl, rfl, fun _ h => decode_reservedWord h l⟩

/-! ## Request and response payloads (30_encoding.md R84 to R87, R94) -/

theorem decodeReq_write (code : Half) (r g b : Byte) :
    decodeReq ([0x02, 0x11, 0x51] ++ u16le code ++ [r, g, b]) = .ok (.reqWr5111 code r g b) := by
  have hcode : code.extractLsb' 8 8 ++ code.extractLsb' 0 8 = code := le16_u16le code
  simp [decodeReq, u16le, hcode]

/-- The request words are those of the command table, and the write request is read back byte by byte. -/
theorem decodeReq_hasWord {w : Bytes} {i : Instr} (h : decodeReq w = .ok i) : i.HasWord .req w := by
  unfold decodeReq at h
  split at h
  · split at h
    · rename_i hw; cases h; exact ⟨rfl, rfl, hw.symm⟩
    · split at h
      · rename_i hw; cases h; exact ⟨rfl, rfl, hw.symm⟩
      · split at h
        · rename_i hw; cases h; exact ⟨rfl, rfl, hw.symm⟩
        · cases h
  · rename_i b0 b1 b2 c0 c1 r g b
    split at h
    · rename_i hw
      cases h; cases hw
      have hcode : u16le (c1 ++ c0) = [c0, c1] := u16le_le16 [c0, c1] 0
      exact ⟨rfl, rfl, by simp [encode, hcode]⟩
    · cases h
  · cases h

theorem decodeRsp_of_selects {p : Bytes} {a : DecArm} (h : selects p a = true) : decodeRsp p = .ok (armInstr a p) := by
  simp only [selects, Bool.and_eq_true, decide_eq_true_eq, beq_iff_eq] at h
  obtain ⟨hlen, rfl⟩ := h
  rw [decodeRsp, if_neg (by omega)]

theorem armInstr_hasWord {p : Bytes} {a : DecArm} (h : selects p a = true) : (armInstr a p).HasWord .rsp p := by
  cases a <;> exact ⟨h, rfl, rfl⟩

theorem decodeRsp_hasWord {p : Bytes} {i : Instr} (h : decodeRsp p = .ok i) : i.HasWord .rsp p := by
  unfold decodeRsp at h
  split at h
  · cases h
  · cases h
    exact armInstr_hasWord (by simp [selects]; omega)

/-! ## Table keys (30_encoding.md R90 to R93) -/

theorem statusText_eq_unknown_iff (k : Byte) : statusText k = .unknown ↔ k ∉ [0x01, 0x02, 0x81, 0x82] := by
  refine ⟨fun h => by simpa using statusText_unknown h, fun h => ?_⟩
  simp only [List.mem_cons, List.not_mem_nil, or_false, not_or] at h
  simp only [statusText, h, if_false]

theorem errorText_eq_none_iff (k : Byte) : errorText k = none ↔ k.toNat = 0 ∨ 7 ≤ k.toNat := by
  revert k; decide

theorem vibText_eq_unknown_iff (k : Byte) : vibText k = .unknown ↔ 3 ≤ k.toNat := by
  revert k; decide

theorem decodeStatus_default {k : Byte} (h : statusText k = .unknown) : decodeStatus k = .statusDefault k := by
  simp only [decodeStatus, statusText_unknown h, if_false]

theorem decodeError_default {k : Byte} (h : errorText k = none) : decodeError k = .errorDefault k := by
  simp only [decodeError, errorText_none h, if_false]

theorem decodeVib_default {k : Byte} (h : vibText k = .unknown) : decodeVib k = .vibDefault k := by
  simp only [decodeVib, vibText_unknown h, if_false]

theorem decodeStatus_hasWord (k : Byte) : (decodeStatus k).HasWord .tblStatus [k] := by
  by_cases h : statusText k = .unknown
  · rw [decodeStatus_default h]; exact ⟨by simp [Instr.wellFormed, h], rfl, rfl⟩
  · simp only [statusText_eq_unknown_iff, not_not, List.mem_cons, List.not_mem_nil, or_false] at h
    rcases h with rfl | rfl | rfl | rfl <;> exact ⟨rfl, rfl, rfl⟩

theorem errorKey_cases {k : Byte} (h : errorText k ≠ none) : k = 1 ∨ k = 2 ∨ k = 3 ∨ k = 4 ∨ k = 5 ∨ k = 6 := by
  revert k; decide

theorem decodeError_hasWord (k : Byte) : (decodeError k).HasWord .tblError [k] := by
  by_cases h : errorText k = none
  · rw [decodeError_default h]; exact ⟨by simp [Instr.wellFormed, h], rfl, rfl⟩
  · rcases errorKey_cases h with rfl | rfl | rfl | rfl | rfl | rfl <;> exact ⟨rfl, rfl, rfl⟩

theorem vibKey_cases {k : Byte} (h : vibText k ≠ .unknown) : k = 0 ∨ k = 1 ∨ k = 2 := by
  revert k; decide

theorem decodeVib_hasWord (k : Byte) : (decodeVib k).HasWord .tblVib [k] := by
  by_cases h : vibText k = .unknown
  · rw [decodeVib_default h]; exact ⟨by simp [Instr.wellFormed, h], rfl, rfl⟩
  · rcases vibKey_cases h with rfl | rfl | rfl <;> exact ⟨rfl, rfl, rfl⟩

/-- The code 0x0000 beside a name line that names no rule is the default row's (30_encoding.md R93). -/
theorem decodeRule_default {r : RuleOperand} (h : resolveRule r = none) : decodeRule 0x0000 r = .ok (.ruleDefault r) := by
  simp [decodeRule, h]

theorem decodeRule_hasWord {c0 c1 : Byte} {r : RuleOperand} {i : Instr} (h : decodeRule (c1 ++ c0) r = .ok i) :
    i.HasWord .tblRule [c0, c1] := by
  have hbytes : u16le (c1 ++ c0) = [c0, c1] := u16le_le16 [c0, c1] 0
  rw [← hbytes]
  generalize (c1 ++ c0 : Half) = code at h
  unfold decodeRule at h
  split at h
  · rename_i h0
    subst h0
    split at h
    · cases h; exact ⟨rfl, rfl, rfl⟩
    · rename_i hr
      cases h; exact ⟨by simp [Instr.wellFormed, hr], rfl, rfl⟩
  · iterate 8
      split at h
      · rename_i hc; subst hc; cases h; exact ⟨rfl, rfl, rfl⟩
    cases h

/-! ## Frames (20_memory.md R63) -/

theorem decodeFrame_ok_iff (f : Bytes) (i : Instr) : decodeFrame f = .ok i ↔ wholeFrame f = true ∧ i = .frame f := by
  by_cases hl : f.length < 4
  · simp [decodeFrame, wholeFrame, hl]
  · cases hg : headerGood f
    · simp [decodeFrame, wholeFrame, hl, hg]
    · by_cases hn : f.length = (le16 f 2).toNat + Config.overhead
      · simp [decodeFrame, wholeFrame, hg, ← hn, Nat.le_of_not_lt hl, hl, eq_comm]
      · simp [decodeFrame, wholeFrame, hg, hn, hl]

/-! ## Decoder and encoder -/

/-- The decoder answers an instruction of the table whose word is the one presented. -/
theorem decode_hasWord {x : Presented} {i : Instr} (h : decode x = .ok i) : i.HasWord x.fmt x.word := by
  obtain ⟨fmt, word, lines⟩ := x
  cases fmt with
  | hostop =>
    obtain ⟨o, rfl, rfl, rfl⟩ := hostWord_of_decode h
    exact decodeHostop_hasWord o.op o.lines
  | req => exact decodeReq_hasWord h
  | rsp => exact decodeRsp_hasWord h
  | tblStatus =>
    simp only [decode] at h
    split at h
    · cases h; exact decodeStatus_hasWord _
    · cases h
  | tblError =>
    simp only [decode] at h
    split at h
    · cases h; exact decodeError_hasWord _
    · cases h
  | tblVib =>
    simp only [decode] at h
    split at h
    · cases h; exact decodeVib_hasWord _
    · cases h
  | tblRule =>
    simp only [decode] at h
    split at h
    · exact decodeRule_hasWord h
    · cases h
  | frame =>
    obtain ⟨hf, rfl⟩ := (decodeFrame_ok_iff word i).mp h
    exact ⟨hf, rfl, rfl⟩

/-- Settles O1: a row with operands in its word by what its format's decoder answers on them, and every other row, whose
word is fixed, by running the decoder. -/
theorem decodeOfEncodeIsTheInstruction : Obligations.DecodeOfEncodeIsTheInstruction := by
  intro i h
  cases i with
  | hostopReserved op => exact decode_reservedWord (of_decide_eq_true h) {}
  | reqWr5111 code r g b => exact decodeReq_write code r g b
  | decErr p => exact decodeRsp_of_selects (a := .err) h
  | dec5021 p => exact decodeRsp_of_selects (a := .d5021) h
  | dec5402 p => exact decodeRsp_of_selects (a := .d5402) h
  | dec180A p => exact decodeRsp_of_selects (a := .d180A) h
  | decUnsup p => exact decodeRsp_of_selects (a := .unsup) h
  | decBare p => exact decodeRsp_of_selects (a := .bare) h
  | statusDefault k => exact congrArg Except.ok (decodeStatus_default (eq_of_beq h))
  | errorDefault k => exact congrArg Except.ok (decodeError_default (eq_of_beq h))
  | vibDefault k => exact congrArg Except.ok (decodeVib_default (eq_of_beq h))
  | ruleDefault r => exact decodeRule_default (eq_of_beq h)
  | frame f => exact (decodeFrame_ok_iff f _).mpr ⟨h, rfl⟩
  | _ => rfl

/-- Settles O2: no decoder drops a bit of its word. -/
theorem encodeOfDecodeIsTheWord : Obligations.EncodeOfDecodeIsTheWord :=
  fun _ _ h => ⟨(decode_hasWord h).fmt, (decode_hasWord h).word⟩

/-- Settles O3: every branch of the decoders answers with operands of its row. -/
theorem decodedInstructionIsWellFormed : Obligations.DecodedInstructionIsWellFormed :=
  fun _ _ h => (decode_hasWord h).wellFormed

/-- Settles O6: each of the ten words, by running the decoder on it. -/
theorem specWordsDecode : Obligations.SpecWordsDecode :=
  ⟨rfl, rfl, rfl, rfl, rfl, rfl, rfl, rfl, rfl, rfl⟩

end Sys2Proof

/-! The operands of BLD.WRLED: the codes of the display rules and the numbers of the colour forms (30_encoding.md R93, R106,
R107). -/

namespace Sys2Proof.Machine

/-! ## Display rules -/

theorem displayRuleOfName_other {n : String} (h : n ∉ ["OFF", "ON", "Temperature", "Humidity", "Illuminance",
    "Barometric Pressure", "Sound Noise", "eTVOC", "Vibration"]) : displayRuleOfName n = none := by
  simp only [List.mem_cons, List.not_mem_nil, or_false, not_or] at h
  simp only [displayRuleOfName, h, if_false]

theorem ruleCode_index (i : BitVec 4) : (ruleCode (.index i)).toNat = if i.toNat ≤ 8 then i.toNat else 0 := by
  revert i; decide

theorem displayRuleOfIndex_on_iff (i : BitVec 4) : displayRuleOfIndex i = some .on ↔ i = 1 := by
  revert i; decide

theorem displayRuleOfName_on_iff (n : String) : displayRuleOfName n = some .on ↔ n = "ON" := by
  refine ⟨fun h => ?_, by rintro rfl; rfl⟩
  unfold displayRuleOfName at h
  split at h
  · cases h
  · split at h
    · assumption
    · iterate 7
        split at h
        · cases h
      cases h

theorem resolveRule_on_iff (r : RuleOperand) : resolveRule r = some .on ↔ r = .name "ON" ∨ r = .index 1 := by
  cases r with
  | absent => simp [resolveRule]
  | name n => simp [resolveRule, displayRuleOfName_on_iff]
  | index i => simp [resolveRule, displayRuleOfIndex_on_iff]

/-- Settles O14: the names and the indexes by their tables, and every operand that names no rule has OFF's code. -/
theorem displayRuleCodes : Obligations.DisplayRuleCodes :=
  ⟨rfl, rfl, rfl, rfl, rfl, rfl, rfl, rfl, rfl, fun _ h => ruleCode_unrecognised (displayRuleOfName_other h), rfl,
    ruleCode_index, resolveRule_on_iff⟩

/-! ## Hexadecimal digits -/

/-- The place of a character in the row of the sixteen digits, its letter in lower case. -/
def hexPlace (c : Char) : Nat := "0123456789abcdef".toList.idxOf c.toLower

theorem isHexDigit_iff_toNat (c : Char) : isHexDigit c ↔
    48 ≤ c.toNat ∧ c.toNat ≤ 57 ∨ 65 ≤ c.toNat ∧ c.toNat ≤ 70 ∨ 97 ≤ c.toNat ∧ c.toNat ≤ 102 := Iff.rfl

/-- The digits' values are their places, over the 128 characters that can be digits. -/
theorem hexDigit_ascii : ∀ n < 128, isHexDigit (Char.ofNat n) →
    hexDigit (Char.ofNat n) = some (hexPlace (Char.ofNat n)) := by
  decide

theorem hexDigit_of_isHexDigit {c : Char} (h : isHexDigit c) : hexDigit c = some (hexPlace c) := by
  have := hexDigit_ascii c.toNat (by rw [isHexDigit_iff_toNat] at h; omega)
  rw [Char.ofNat_toNat] at this
  exact this h

theorem hexDigit_of_not {c : Char} (h : ¬ isHexDigit c) : hexDigit c = none := by
  rw [isHexDigit_iff_toNat] at h
  simp only [hexDigit]
  rw [if_neg (by omega), if_neg (by omega), if_neg (by omega)]

theorem hexValue_cons (c : Char) (cs : List Char) : hexValue (c :: cs) = 16 ^ cs.length * hexPlace c + hexValue cs := by
  simp [hexValue, hexPlace, Nat.ofDigits_append, Nat.add_comm]

/-- Reading on through digits appends them to the value read so far. -/
theorem hexFrom_digits (cs : List Char) (h : ∀ c ∈ cs, isHexDigit c) (acc : Nat) :
    hexFrom acc cs = some (16 ^ cs.length * acc + hexValue cs) := by
  induction cs generalizing acc with
  | nil => simp [hexFrom, hexValue]
  | cons c cs ih =>
    obtain ⟨hc, hcs⟩ := List.forall_mem_cons.mp h
    simp only [hexFrom, hexDigit_of_isHexDigit hc, ih hcs, hexValue_cons, List.length_cons, Option.some.injEq]
    ring

theorem hexFrom_refuses {cs : List Char} (h : ∃ c ∈ cs, ¬ isHexDigit c) (acc : Nat) : hexFrom acc cs = none := by
  induction cs generalizing acc with
  | nil => simp at h
  | cons c cs ih =>
    by_cases hc : isHexDigit c
    · have hcs := ((List.exists_mem_cons_iff _ c cs).mp h).resolve_left (not_not.mpr hc)
      simp only [hexFrom, hexDigit_of_isHexDigit hc, ih hcs]
    · simp only [hexFrom, hexDigit_of_not hc]

theorem hexNumber_digits {cs : List Char} (hne : cs ≠ []) (h : ∀ c ∈ cs, isHexDigit c) :
    hexNumber cs = some (hexValue cs) := by
  cases cs with
  | nil => exact absurd rfl hne
  | cons c cs => rw [hexNumber, hexFrom_digits _ h]; simp

theorem hexNumber_refuses {cs : List Char} (h : ∃ c ∈ cs, ¬ isHexDigit c) : hexNumber cs = none := by
  cases cs with
  | nil => rfl
  | cons c cs => exact hexFrom_refuses h 0

/-! ## Colours -/

theorem colorString_hash (cs : List Char) : colorString ('#' :: cs) = hexNumber cs := rfl

theorem colorString_of_head_ne {cs : List Char} (h : cs.head? ≠ some '#') : colorString cs = hexNumber cs := by
  unfold colorString
  split
  · simp at h
  · rfl

theorem resolveColor_str (cs : List Char) : resolveColor (.str (String.ofList cs)) = colorString cs := by
  simp [resolveColor]

theorem head_ne_hash_of_digits {cs : List Char} (h : ∀ c ∈ cs, isHexDigit c) : cs.head? ≠ some '#' :=
  fun hd => absurd (h '#' (List.mem_of_head? hd)) (by decide)

theorem exec_bldWrled_of_some {c : ColorOperand} {n : Nat} (h : resolveColor c = some n) (r : RuleOperand) (s : State) :
    exec (.bldWrled r c) s = .next (s.endWith (buildRequest (writeLedPayload (ruleCode r) (ledColor r n)))) := by
  simp [exec, execBldWrled, h]

theorem exec_bldWrled_of_none {c : ColorOperand} (h : resolveColor c = none) (r : RuleOperand) (s : State) :
    exec (.bldWrled r c) s = .refused .colorUnresolved := by
  simp [exec, execBldWrled, h]

/-- BLD.WRLED sees the number of its colour alone. -/
theorem exec_bldWrled_congr {a b : ColorOperand} (h : resolveColor a = resolveColor b) (r : RuleOperand) (s : State) :
    exec (.bldWrled r a) s = exec (.bldWrled r b) s := by
  cases ha : resolveColor a with
  | none => rw [exec_bldWrled_of_none ha, exec_bldWrled_of_none (h ▸ ha)]
  | some n => rw [exec_bldWrled_of_some ha, exec_bldWrled_of_some (h ▸ ha)]

/-- Settles O15: a string of digits spells its number, with one leading # or without, and any other character in it is met
before the end. -/
theorem colourForms : Obligations.ColourForms := by
  refine ⟨rfl, rfl, fun n h => if_pos h, fun cs hne h => ?_, fun n h => if_neg (not_le.mpr h), rfl, rfl, rfl,
    fun cs h => ?_, fun r a b s h => exec_bldWrled_congr h r s, fun r c s h => exec_bldWrled_of_none h r s⟩
  · rw [resolveColor_str, resolveColor_str, colorString_hash, colorString_of_head_ne (head_ne_hash_of_digits h)]
    exact ⟨hexNumber_digits hne h, hexNumber_digits hne h⟩
  · rw [resolveColor_str, resolveColor_str, colorString_hash]
    exact ⟨fun hd => (colorString_of_head_ne hd).trans (hexNumber_refuses h), hexNumber_refuses h⟩

end Sys2Proof.Machine

/-! The decoded records (30_encoding.md R89 to R92, R98 to R101): the result of each decode arm, the lookup tables, the
scaled values and the ASCII ranges. -/

namespace Sys2Proof.Machine

/-! ## The result of an arm -/

/-- What a decode arm makes of a payload that is long enough for it (43_decode.md R204 to R209). -/
def armResult : DecArm → Bytes → Except Exn DecodedRecord
  | .err, p => .ok (recordOf p (.errRsp (byteAt p 3) (errorText (byteAt p 3))))
  | .d5021, p => .ok (recordOf p (.d5021 (sensorData p)))
  | .d5402, p => .ok (recordOf p (.d5402 (byteAt p 3)))
  | .d180A, p => .ok (recordOf p (.d180A (deviceInfo p)))
  | .unsup, p => .error (.unsupportedAddress (le16 p 1) (byteAt p 0))
  | .bare, p => .ok (recordOf p .bare)

theorem execArm_eq (a : DecArm) (p : Bytes) (s : State) :
    execArm a p s = .next (s.endRecord (guarded p a (armResult a p))) := by
  cases a <;> rfl

theorem guarded_of_le {p : Bytes} {a : DecArm} (h : need a ≤ p.length) (x : Except Exn DecodedRecord) :
    guarded p a x = x := by
  rw [guarded, if_neg (by omega)]

theorem guarded_of_lt {p : Bytes} {a : DecArm} (h : p.length < need a) (x : Except Exn DecodedRecord) :
    guarded p a x = .error (.payloadLength p.length (need a)) := by
  rw [guarded, if_pos h]

/-- An arm that has its bytes and a record ends with that record in RESP. -/
theorem exec_armInstr_of_ok {a : DecArm} {p : Bytes} {d : DecodedRecord} (h : need a ≤ p.length)
    (hd : armResult a p = .ok d) (s : State) : exec (armInstr a p) s = .next (s.withResp ⟨true, some d⟩) := by
  rw [exec_armInstr, execArm_eq, guarded_of_le h, hd]
  rfl

/-- The record of every arm that has one takes status, text and address from the payload's first three bytes. -/
theorem armResult_recordOf {a : DecArm} {p : Bytes} {d : DecodedRecord} (h : armResult a p = .ok d) :
    ∃ b : Body, d = recordOf p b := by
  cases a with
  | unsup => cases h
  | _ => cases h; exact ⟨_, rfl⟩

/-- A record in RESP after a decode arm is the arm's own: an exception leaves none. -/
theorem armResult_of_record {a : DecArm} {p : Bytes} {s t : State} {r : Resp} {d : DecodedRecord}
    (h : exec (armInstr a p) s = .next t) (hr : t.resp = some r) (hd : r.record = some d) : armResult a p = .ok d := by
  rw [exec_armInstr, execArm_eq] at h
  cases h
  rcases lt_or_ge p.length (need a) with hl | hl
  · rw [guarded_of_lt hl] at hr; cases hr
  · rw [guarded_of_le hl] at hr
    cases ha : armResult a p with
    | error e => rw [ha] at hr; cases hr
    | ok x => rw [ha] at hr; cases hr; cases hd; rfl

/-! ## The lookup tables -/

/-- Settles O18: the record is the arm's, and its text is the table's at its status byte. -/
theorem statusTable : Obligations.StatusTable := by
  refine ⟨⟨rfl, rfl, rfl, rfl, rfl⟩, fun a p s t r d h hr hd => ?_⟩
  obtain ⟨b, rfl⟩ := armResult_recordOf (armResult_of_record h hr hd)
  have text : ∀ k : Byte, byteAt p 0 = k → statusText (byteAt p 0) = statusText k := fun _ => congrArg statusText
  exact ⟨rfl, text 0x01, text 0x02, text 0x81, text 0x82, (statusText_eq_unknown_iff (byteAt p 0)).mpr⟩

theorem errorText_isSome_iff (k : Byte) : (errorText k).isSome = true ↔ 1 ≤ k.toNat ∧ k.toNat ≤ 6 := by
  rw [Option.isSome_iff_ne_none, ne_eq, errorText_eq_none_iff]
  omega

/-- A table's entry at a byte whose number is that of the row's key. -/
theorem entry_of_toNat {α : Type} (table : Byte → α) {k : Byte} (n : Byte) (h : k.toNat = n.toNat) : table k = table n :=
  congrArg table (BitVec.eq_of_toNat_eq h)

/-- Settles O19: the error is the table's at byte 3, and ERROR_VALID says whether there is one. -/
theorem errorTable : Obligations.ErrorTable := by
  refine ⟨⟨rfl, rfl, rfl, rfl, rfl, rfl⟩, fun p s h => ⟨_, _, _, exec_armInstr_of_ok (a := .err) h rfl s, rfl, rfl,
    errorText_isSome_iff _, ?_⟩⟩
  have entry := @entry_of_toNat _ errorText (byteAt p 3)
  exact ⟨entry 1, entry 2, entry 3, entry 4, entry 5, entry 6, (errorText_eq_none_iff _).mpr⟩

/-- Settles O20: the vibration status is the table's at byte 24. -/
theorem vibrationTable : Obligations.VibrationTable := by
  refine ⟨⟨rfl, rfl, rfl, rfl⟩, fun p s h => ⟨_, _, _, exec_armInstr_of_ok (a := .d5021) h rfl s, rfl, rfl, ?_⟩⟩
  have entry := @entry_of_toNat _ vibText (byteAt p 24)
  exact ⟨entry 0, entry 1, entry 2, (vibText_eq_unknown_iff _).mpr⟩

theorem exec_statusDefault (k : Byte) (s : State) :
    exec (.statusDefault k) s = .next (s.withResult (.status (statusText k))) := rfl

theorem exec_errorDefault (k : Byte) (s : State) :
    exec (.errorDefault k) s = .next (s.withResult (.error (errorText k))) := rfl

theorem exec_vibDefault (k : Byte) (s : State) : exec (.vibDefault k) s = .next (s.withResult (.vib (vibText k))) := rfl

theorem exec_ruleDefault (r : RuleOperand) (s : State) :
    exec (.ruleDefault r) s = .next (s.withResult (.code (ruleCode r))) := rfl

/-- Settles O21: a row with a key of its own by computation, a default row by the table on the keys that have no row. -/
theorem tableRowsHandOverTheirEntries : Obligations.TableRowsHandOverTheirEntries := by
  refine fun s => ⟨⟨rfl, rfl, rfl, rfl, fun k h => ?_⟩, ⟨rfl, rfl, rfl, rfl, rfl, rfl, fun k h => ?_⟩,
    ⟨rfl, rfl, rfl, fun k h => ?_⟩, ⟨rfl, rfl, rfl, rfl, rfl, rfl, rfl, rfl, rfl, fun r h => ?_⟩⟩
  · rw [exec_statusDefault, (statusText_eq_unknown_iff k).mpr h]
  · rw [exec_errorDefault, (errorText_eq_none_iff k).mpr (h.imp_left (congrArg BitVec.toNat))]
  · rw [exec_vibDefault, (vibText_eq_unknown_iff k).mpr h]
  · rw [exec_ruleDefault, ruleCode_unrecognised h]

/-! ## Scaled values (30_encoding.md R98) -/

theorem scaled_mul (raw : Int) (k : Nat) : scaled raw k * ((10 ^ k : Nat) : Rat) = raw :=
  div_mul_cancel₀ _ (by positivity)

theorem scaled_zero (raw : Int) : scaled raw 0 = raw := by simp [scaled]

/-- Settles O24: each field is its raw integer divided by the power of ten of its scale. -/
theorem sensorValuesAreExact : Obligations.SensorValuesAreExact := by
  have tenth : ∀ x : Int, scaled x 1 * 10 = x := fun x => by simpa using scaled_mul x 1
  have hundredth : ∀ x : Int, scaled x 2 * 100 = x := fun x => by simpa using scaled_mul x 2
  have thousandth : ∀ x : Int, scaled x 3 * 1000 = x := fun x => by simpa using scaled_mul x 3
  exact fun d => ⟨scaled_zero _, hundredth _, hundredth _, scaled_zero _, thousandth _, hundredth _, scaled_zero _,
    scaled_zero _, hundredth _, hundredth _, tenth _, thousandth _⟩

/-! ## ASCII ranges (30_encoding.md R99, R101) -/

/-- A slice inside the sequence, byte by byte. -/
theorem slice_eq_map_byteAt {s : Bytes} {a b : Nat} (h : b ≤ s.length) :
    slice s a b = (List.range (b - a)).map (fun o => byteAt s (a + o)) := by
  refine List.ext_getElem (by simp [slice_length h]) fun o ho _ => ?_
  rw [slice_length h] at ho
  rw [List.getElem_map, List.getElem_range, ← byteAt_slice (show a + o < b by omega), byteAt, List.getD_eq_getElem]

/-- Settles O26: the five ranges are slices inside a payload of 38 bytes. -/
theorem deviceInformationRanges : Obligations.DeviceInformationRanges := by
  refine fun p s h => ⟨_, exec_armInstr_of_ok (a := .d180A) h rfl s, ?_, rfl⟩
  have range : ∀ a b, b ≤ 38 → slice p a b = (List.range (b - a)).map (fun o => byteAt p (a + o)) :=
    fun _ _ hb => slice_eq_map_byteAt (hb.trans h)
  rw [recordOf, deviceInfo, range 3 13 (by decide), range 13 23 (by decide), range 23 28 (by decide),
    range 28 33 (by decide), range 33 38 (by decide)]
  rfl

/-- Settles O27: the reading is a map over the bytes. -/
theorem asciiReading : Obligations.AsciiReading :=
  ⟨rfl, fun a b c => by rw [asciiText, List.map_append, List.map_append]; rfl⟩

end Sys2Proof.Machine

/-! The request words and the pseudo-operations: payloads and frames (30_encoding.md R84 to R86, R105). -/

namespace Sys2Proof.Machine

theorem readPayload_latestLong : readPayload Config.regLatestLong = [0x01, 0x21, 0x50] := rfl

theorem readPayload_mountOrient : readPayload Config.regMountOrient = [0x01, 0x02, 0x54] := rfl

theorem readPayload_deviceInfo : readPayload Config.regDeviceInfo = [0x01, 0x0a, 0x18] := rfl

/-- The colour bytes that stand under a rule (41_builder.md R145). -/
theorem ledColor_eq (r : RuleOperand) (c : Nat) :
    ledColor r c = if resolveRule r = some .on then colorBytes c else [0, 0, 0] := by
  simp [ledColor, ruleIsOn]

theorem exec_bldReq (p : Bytes) (s : State) : exec (.bldReq p) s = .next (s.endWith (buildRequest p)) := rfl

/-- BLD.REQ of a payload that fits ends with its frame. -/
theorem exec_bldReq_of_le {p : Bytes} (h : p.length ≤ 65533) (s : State) :
    exec (.bldReq p) s = .next (s.withResult (.frame (wrap p))) := by
  rw [exec_bldReq, buildRequest_of_le h]
  rfl

/-- Settles O16: the Builder wraps the payload each of the four computes. -/
theorem pseudoOperationsExpand : Obligations.PseudoOperationsExpand := by
  refine fun s => ⟨?_, ?_, ?_, fun r color c h => ?_⟩
  · rw [exec_bldReq, ← readPayload_latestLong]; rfl
  · rw [exec_bldReq, ← readPayload_mountOrient]; rfl
  · rw [exec_bldReq, ← readPayload_deviceInfo]; rfl
  · rw [exec_bldReq, exec_bldWrled_of_some h, writeLedPayload, ledColor_eq]; rfl

theorem wrap_readLatestLong : wrap [0x01, 0x21, 0x50] = [0x52, 0x42, 0x05, 0x00, 0x01, 0x21, 0x50, 0xe2, 0x4b] := by
  decide +kernel

theorem wrap_readMountOrient : wrap [0x01, 0x02, 0x54] = [0x52, 0x42, 0x05, 0x00, 0x01, 0x02, 0x54, 0xfa, 0xb8] := by
  decide +kernel

theorem wrap_readDeviceInfo : wrap [0x01, 0x0a, 0x18] = [0x52, 0x42, 0x05, 0x00, 0x01, 0x0a, 0x18, 0xfc, 0x8d] := by
  decide +kernel

/-- A value's two bytes little-endian, by arithmetic. -/
theorem u16le_eq_ofNat (v : Half) : u16le v = [BitVec.ofNat 8 v.toNat, BitVec.ofNat 8 (v.toNat / 256)] := by
  rw [u16le, BitVec.extractLsb', BitVec.extractLsb', Nat.shiftRight_zero, Nat.shiftRight_eq_div_pow]

theorem writeLedPayload_rgb (code : Half) (r g b : Byte) : writeLedPayload code [r, g, b] =
    [0x02, 0x11, 0x51, BitVec.ofNat 8 code.toNat, BitVec.ofNat 8 (code.toNat / 256), r, g, b] := by
  rw [writeLedPayload, u16le_eq_ofNat code]
  rfl

theorem exec_reqRd5021 (s : State) : exec .reqRd5021 s = exec (.bldReq [0x01, 0x21, 0x50]) s := rfl

theorem exec_reqRd5402 (s : State) : exec .reqRd5402 s = exec (.bldReq [0x01, 0x02, 0x54]) s := rfl

theorem exec_reqRd180A (s : State) : exec .reqRd180A s = exec (.bldReq [0x01, 0x0a, 0x18]) s := rfl

theorem exec_reqWr5111 (code : Half) (r g b : Byte) (s : State) :
    exec (.reqWr5111 code r g b) s =
      exec (.bldReq [0x02, 0x11, 0x51, BitVec.ofNat 8 code.toNat, BitVec.ofNat 8 (code.toNat / 256), r, g, b]) s := by
  rw [← writeLedPayload_rgb]
  rfl

/-- Settles O17: each word is BLD.REQ of its row's payload, of 3 or of 8 bytes. -/
theorem requestWordsEmitTheirFrames : Obligations.RequestWordsEmitTheirFrames := by
  refine fun s => ⟨?_, ?_, ?_, fun code r g b => ⟨_, ?_, exec_bldReq_of_le (by simp) s⟩⟩
  · rw [exec_reqRd5021, exec_bldReq_of_le (by simp), wrap_readLatestLong]
  · rw [exec_reqRd5402, exec_bldReq_of_le (by simp), wrap_readMountOrient]
  · rw [exec_reqRd180A, exec_bldReq_of_le (by simp), wrap_readDeviceInfo]
  · rw [exec_reqWr5111, exec_bldReq_of_le (by simp)]

end Sys2Proof.Machine

/-! The checksum (40_crc.md): the iterations of one byte, and a sequence followed by its own checksum. -/

namespace Sys2Proof.Machine

theorem exec_crc16 (bs : Bytes) (s : State) : exec (.crc16 bs) s = .next (s.withResult (.crc (crc16 bs))) := rfl

theorem crc16_append (a b : Bytes) : crc16 (a ++ b) = crcRun (crc16 a) b := crcRun_append Config.crcInit a b

/-! ## One byte (40_crc.md R121) -/

/-- One iteration, with the low bit read from the number. -/
theorem crcBit_eq (r : Half) : crcBit r = if r.toNat % 2 = 1 then (r >>> 1) ^^^ 0xA001 else r >>> 1 := by
  simp [crcBit, Config.crcFeedback, BitVec.getLsbD, Nat.testBit_zero]

theorem crcBits_eq_iterate (n : Nat) (r : Half) : crcBits n r = crcBit^[n] r := by
  induction n generalizing r with
  | zero => rfl
  | succ n ih => rw [crcBits_succ, ih, Function.iterate_succ_apply]

/-- Settles O8: CRC16 runs over the bytes from left to right, so one more byte is one more crcByte, whose iterations are
those of the algorithm. -/
theorem crc16FollowsTheBitAlgorithm : Obligations.Crc16FollowsTheBitAlgorithm := by
  refine ⟨fun s => exec_crc16 [] s, fun bs b s => ⟨crc16 bs, exec_crc16 bs s, ?_⟩⟩
  rw [exec_crc16, crc16_append, crcRun_cons, crcRun_nil, crcByte, crcBits_eq_iterate, funext crcBit_eq]

/-! ## The residue (40_crc.md R124) -/

/-- A byte equal to the low half of the register clears it, so its eight iterations only shift. -/
theorem crcByte_of_low {r : Half} {b : Byte} (h : b.toNat = r.toNat % 2 ^ 8) : (crcByte r b).toNat = r.toNat / 2 ^ 8 := by
  have hx : (r ^^^ b.setWidth 16).toNat = r.toNat ^^^ r.toNat % 2 ^ 8 := by
    rw [BitVec.toNat_xor, BitVec.toNat_setWidth_of_le (by decide), h]
  have low : (r ^^^ b.setWidth 16).toNat % 2 ^ 8 = 0 := by
    rw [hx, Nat.xor_mod_two_pow, Nat.mod_mod, Nat.xor_self]
  rw [crcByte, crcBits_of_low_zero 8 _ low, hx, Nat.xor_div_two_pow, Nat.div_eq_of_lt (Nat.mod_lt _ (by decide)),
    Nat.xor_zero]

/-- The low byte shifts the high byte down, and the high byte shifts it out. -/
theorem crcRun_own_bytes (r : Half) :
    crcRun r [BitVec.ofNat 8 (r.toNat % 256), BitVec.ofNat 8 (r.toNat / 256)] = 0 := by
  have hlow : (crcByte r (BitVec.ofNat 8 (r.toNat % 256))).toNat = r.toNat / 256 := crcByte_of_low (by simp)
  have hzero : r.toNat / 256 / 2 ^ 8 = 0 := by have := r.isLt; omega
  apply BitVec.eq_of_toNat_eq
  rw [crcRun_cons, crcRun_cons, crcRun_nil, crcByte_of_low (by simp [hlow]), hlow, hzero]
  rfl

/-- Settles O9: the checksum is the register the two bytes start from. -/
theorem crc16ResidueIsZero : Obligations.Crc16ResidueIsZero := by
  refine fun bs s => ⟨crc16 bs, exec_crc16 bs s, ?_⟩
  rw [exec_crc16, crc16_append, crcRun_own_bytes]

end Sys2Proof.Machine

/-! The Builder (41_builder.md): the layout of its frames, and its frames on their way back through a parser. -/

namespace Sys2Proof.Machine

/-! ## The layout of a frame (41_builder.md R141 to R145) -/

/-- CRC16 of a frame without its last two bytes is what those two hold, the low byte first. -/
theorem exec_crc16_wrap {p : Bytes} {n : Nat} (h : n = p.length + 4) (s : State) :
    exec (.crc16 ((wrap p).take n)) s = .next (s.withResult (.crc (byteAt (wrap p) (n + 1) ++ byteAt (wrap p) n))) := by
  subst h
  rw [exec_crc16, wrap_take, ← wrap_stored]
  rfl

/-- The length field of a frame (20_memory.md R63). -/
theorem wrap_lengthField {p : Bytes} (h : p.length ≤ 65533) :
    (byteAt (wrap p) 2).toNat + 256 * (byteAt (wrap p) 3).toNat = p.length + 2 :=
  (le16_toNat (wrap p) 2).symm.trans (wrap_declared h)

/-- Settles O10: the frame is the wrapped payload, whose parts are read off one by one. -/
theorem buildRequestLaysOutTheFrame : Obligations.BuildRequestLaysOutTheFrame :=
  fun p s h => ⟨wrap p, exec_bldReq_of_le h s, wrap_length p, rfl, rfl, wrap_lengthField h, wrap_payload p,
    exec_crc16_wrap rfl s⟩

/-- Settles O12: each operation is BLD.REQ of its payload, and the wrapped payload is the frame of the rule. -/
theorem fixedReadRequests : Obligations.FixedReadRequests := by
  refine ⟨fun l => ?_, fun s => ?_⟩
  · obtain ⟨-, -, -, hlong, hori, hinfo, -⟩ := hostCodesSelectTheOperations l
    exact ⟨hlong, hori, hinfo⟩
  · obtain ⟨hlong, hori, hinfo, -⟩ := pseudoOperationsExpand s
    refine ⟨?_, hlong, ?_, hori, ?_, hinfo⟩
    · rw [hlong, exec_bldReq_of_le (by simp), wrap_readLatestLong]
    · rw [hori, exec_bldReq_of_le (by simp), wrap_readMountOrient]
    · rw [hinfo, exec_bldReq_of_le (by simp), wrap_readDeviceInfo]

/-- The colour of a write-LED request is three bytes under every rule. -/
theorem ledColor_length (r : RuleOperand) (c : Nat) : (ledColor r c).length = 3 := by
  rw [ledColor]
  split <;> rfl

theorem writeLedPayload_length {rgb : Bytes} (h : rgb.length = 3) (code : Half) :
    (writeLedPayload code rgb).length = 8 := by
  simp [writeLedPayload, h]

/-- The bytes of a write-LED frame, its length field 10 and its opcode and register those of 30_encoding.md R85. -/
theorem wrap_writeLedPayload {rgb : Bytes} (h : rgb.length = 3) (code : Half) :
    wrap (writeLedPayload code rgb) =
      [0x52, 0x42, 0x0a, 0x00, 0x02, 0x11, 0x51, BitVec.ofNat 8 code.toNat, BitVec.ofNat 8 (code.toNat / 256)] ++
        (rgb ++ u16le (crc16 (frameHead (writeLedPayload code rgb)))) := by
  have hlen : u16le (BitVec.ofNat 16 (8 + Config.lenBias)) = [0x0a, 0x00] := by decide
  rw [wrap, frameHead, writeLedPayload_length h, hlen, writeLedPayload, u16le_eq_ofNat code]
  simp [Config.headerB0, Config.headerB1, Config.opWrite, Config.regLed, u16le]

/-- Settles O13: the frame is the wrapped payload of 8 bytes, which ends in the colour bytes of the rule. -/
theorem writeLedRequestFrame : Obligations.WriteLedRequestFrame := by
  intro rule color c s h
  have hrgb := ledColor_length rule c
  have hlen := writeLedPayload_length hrgb (ruleCode rule)
  have hwrap := wrap_writeLedPayload hrgb (ruleCode rule)
  refine ⟨wrap (writeLedPayload (ruleCode rule) (ledColor rule c)), ?_, ?_, ?_, ?_, exec_crc16_wrap (by rw [hlen]) s⟩
  · rw [exec_bldWrled_of_some h, ← exec_bldReq, exec_bldReq_of_le (by rw [hlen]; decide)]
  · rw [wrap_length, hlen]
  · rw [hwrap]
    rfl
  · rw [hwrap]
    exact (List.take_left' hrgb).trans (ledColor_eq rule c)

/-! ## A frame of the Builder in a parser (42_parser.md R180, R186) -/

/-- A parser in IDLE is never stale (42_parser.md R174). -/
theorem Parser.stale_idle {p : Parser} (h : p.explen = 0) (now : Nat) : p.stale now = false := by
  simp [Parser.stale, h]

/-- A chunk that completes the frame resets the parser and hands the frame over (42_parser.md R180). -/
theorem feed_of_accepts_complete {q : Parser} {now : Nat} {c f : Bytes} {len : Nat} (hs : q.stale now = false)
    (h : Accepts q c f len) (hlen : f.length = len) : q.feed now c = (q.idled, .complete f) := by
  obtain ⟨r, rfl, hexp, -, hen, httl, hfeed⟩ := feed_of_accepts hs h
  rw [hfeed]
  rcases r.settle_cases with ⟨hl, -⟩ | ⟨hl, -⟩ | ⟨-, e⟩
  · omega
  · omega
  · rw [e, Parser.clear, Parser.idled, hen, httl]

/-- A parser in IDLE takes a frame of the Builder as a frame start that declares the frame's own length. -/
theorem accepts_wrap {q : Parser} (h0 : q.explen = 0) {p : Bytes} (h : p.length ≤ 65533) :
    Accepts q (wrap p) (wrap p) (p.length + 6) := by
  have hdecl := wrap_lengthField h
  exact .inl ⟨h0, by rw [wrap_length]; omega, rfl, rfl, rfl, by omega⟩

theorem frameBody_wrap (p : Bytes) : frameBody (wrap p) = frameHead p := by
  rw [frameBody, wrap_length]
  exact wrap_take p

theorem frameStored_wrap (p : Bytes) : frameStored (wrap p) = crc16 (frameHead p) := by
  rw [frameStored, wrap_length]
  exact wrap_stored p

theorem framePayload_wrap (p : Bytes) : framePayload (wrap p) = p := by
  rw [framePayload, wrap_length, slice, List.drop_take]
  exact wrap_payload p

/-- The checksum of a frame the Builder makes is good, so its payload is decoded. -/
theorem discharge_wrap (p : Bytes) (s : State) : discharge (wrap p) s = decodePayload p s := by
  rw [discharge, frameBody_wrap, frameStored_wrap, if_pos rfl, framePayload_wrap]

theorem exec_parse_wrap {s : State} {k : Nat} {q : Parser} (hq : s.parser k = some q) (h0 : q.explen = 0) (now : Nat)
    {p : Bytes} (h : p.length ≤ 65533) :
    exec (.parse k now (.bytes (wrap p))) s = decodePayload p (s.setParser k q.idled) := by
  rw [exec_parse_bytes hq, feed_of_accepts_complete (Parser.stale_idle h0 now) (accepts_wrap h0 h) (wrap_length p)]
  exact discharge_wrap p _

/-- Settles O44: PARSE of the wrapped payload is the decode of the payload, which is the arm's instruction from 3 bytes on
and raises below. -/
theorem builtFramesPassTheParser : Obligations.BuiltFramesPassTheParser := by
  refine fun s k now q p hq h0 h => ⟨wrap p, exec_bldReq_of_le h s, fun i hi => ?_, fun hl => ?_⟩
  · obtain ⟨t, ht, -⟩ := decodePayload_ended p (s.setParser k q.idled)
    exact ⟨t, (exec_parse_wrap hq h0 now h).trans ht, decodePayload_of_decode hi _ ▸ ht⟩
  · rw [exec_parse_wrap hq h0 now h, decodePayload_of_short hl]
    rfl

end Sys2Proof.Machine

/-! The parser (42_parser.md): INIT, what one chunk does by the lengths, the validation of a completed frame, and a frame
that comes in several chunks. -/

namespace Sys2Proof.Machine

/-! ## INIT and the forms of a chunk (42_parser.md R171, R172) -/

/-- Settles O32: INIT writes a fresh parser and the idle RESP, and without a timeout it draws the free value. -/
theorem initConstructsAFreshParser : Obligations.InitConstructsAFreshParser :=
  fun s _ _ => ⟨rfl, Config.freeTtl s.draws, rfl⟩

/-- An array of byte values normalises to the bytes. -/
theorem arrayBytes_map_int (bs : Bytes) : arrayBytes (bs.map fun b => ArrayElem.int b.toNat) = some bs := by
  induction bs with
  | nil => rfl
  | cons b bs ih =>
    have hb := b.isLt
    rw [List.map_cons, arrayBytes, if_pos (by omega), ih, BitVec.ofInt_natCast, BitVec.ofNat_toNat, BitVec.setWidth_eq]
    rfl

/-- PARSE sees the normalised chunk alone. -/
theorem exec_parse_congr {a b : ChunkOperand} (h : Machine.norm a = Machine.norm b) {k now : Nat} {s : State} :
    exec (.parse k now a) s = exec (.parse k now b) s := by
  simp only [exec, execParse, h]

/-- Settles O40: both forms normalise to the bytes they hold. -/
theorem chunkFormsAgree : Obligations.ChunkFormsAgree :=
  fun _ _ _ bs => ⟨exec_parse_congr (a := .array _) (b := .bytes bs) (arrayBytes_map_int bs),
    exec_parse_congr (a := .wrapper _) (b := .bytes bs) (arrayBytes_map_int bs)⟩

/-! ## The staleness check (42_parser.md R174) -/

theorem AfterStaleness.idled_eq {p q : Parser} {now : Nat} (h : AfterStaleness p now q) : q.idled = p.idled := by
  obtain ⟨-, -, hen, httl⟩ := afterStaleness h
  rw [Parser.idled, Parser.idled, hen, httl]

theorem AfterStaleness.of_idle {p : Parser} (h : p.explen = 0) (now : Nat) : AfterStaleness p now p :=
  .inr ⟨fun ⟨hne, _⟩ => hne h, rfl⟩

/-- Settles O42: the stale parser is the idle one before the chunk is looked at, and PARSE writes over it. -/
theorem stalenessDiscardsThePartialFrame : Obligations.StalenessDiscardsThePartialFrame := by
  intro s k now p c hp h
  obtain ⟨-, hfeed, -⟩ := afterStaleness (.inl ⟨h, rfl⟩ : AfterStaleness p now p.idled)
  rw [exec_parse_bytes hp, exec_parse_bytes (State.parser_setParser_same s k p.idled), hfeed, State.setParser_setParser]

/-! ## The comparison of the lengths (42_parser.md R178 to R180) -/

/-- The registers of a parser in BUFFERING: the bytes so far, the declared total, and the time of the last chunk. -/
def Parser.holding (p : Parser) (f : Bytes) (len now : Nat) : Parser :=
  { p with buf := f, explen := BitVec.ofNat 17 len, lastts := now }

/-- The state after a chunk that leaves the frame of the parser of link `k` incomplete (42_parser.md R178). -/
def State.midFrame (s : State) (k : Nat) (p : Parser) (f : Bytes) (len now : Nat) : State :=
  (s.setParser k (p.holding f len now)).respond Resp.incomplete

theorem feed_of_accepts_incomplete {q : Parser} {now : Nat} {c f : Bytes} {len : Nat} (hs : q.stale now = false)
    (h : Accepts q c f len) (hlen : f.length < len) : q.feed now c = (q.holding f len now, .incomplete) := by
  obtain ⟨r, rfl, rfl, hts, hen, httl, hfeed⟩ := feed_of_accepts hs h
  rw [hfeed]
  rcases r.settle_cases with ⟨-, e⟩ | ⟨hl, -⟩ | ⟨hl, -⟩
  · rw [e, Parser.holding, BitVec.ofNat_toNat, BitVec.setWidth_eq, ← hts, ← hen, ← httl]
  · omega
  · omega

theorem feed_of_accepts_overrun {q : Parser} {now : Nat} {c f : Bytes} {len : Nat} (hs : q.stale now = false)
    (h : Accepts q c f len) (hlen : len < f.length) : q.feed now c = (q.idled, .raised (.overrun f.length len)) := by
  obtain ⟨r, rfl, rfl, -, hen, httl, hfeed⟩ := feed_of_accepts hs h
  rw [hfeed]
  rcases r.settle_cases with ⟨hl, -⟩ | ⟨-, e⟩ | ⟨hl, -⟩
  · omega
  · rw [e, Parser.clear, Parser.idled, hen, httl]
  · omega

section
variable {s : State} {k now : Nat} {p q : Parser} {c f : Bytes} {len : Nat}
variable (hp : s.parser k = some p) (hq : AfterStaleness p now q) (hc : Accepts q c f len)
include hp hq hc

theorem exec_parse_of_incomplete (h : f.length < len) :
    exec (.parse k now (.bytes c)) s = .next (s.midFrame k p f len now) := by
  obtain ⟨hs, hfeed, hen, httl⟩ := afterStaleness hq
  rw [exec_parse_bytes hp, hfeed, feed_of_accepts_incomplete hs hc h, Parser.holding, hen, httl]
  rfl

theorem exec_parse_of_complete (h : f.length = len) :
    exec (.parse k now (.bytes c)) s = discharge f (s.setParser k p.idled) := by
  obtain ⟨hs, hfeed, -⟩ := afterStaleness hq
  rw [exec_parse_bytes hp, hfeed, feed_of_accepts_complete hs hc h, hq.idled_eq]
  rfl

theorem exec_parse_of_overrun (h : len < f.length) :
    exec (.parse k now (.bytes c)) s = .next ((s.setParser k p.idled).raise (.overrun f.length len)) := by
  obtain ⟨hs, hfeed, -⟩ := afterStaleness hq
  rw [exec_parse_bytes hp, hfeed, feed_of_accepts_overrun hs hc h, hq.idled_eq]
  rfl

end

/-- Settles O33: the parser holds the accepted bytes, and RESP is the incomplete marker. -/
theorem parseIncompleteFrame : Obligations.ParseIncompleteFrame :=
  fun _ _ _ _ _ _ _ _ hp hq hc h => ⟨exec_parse_of_incomplete hp hq hc h, rfl⟩

/-- Settles O38: PARSE raises with the two lengths, and the log's new entry is an OverrunError. -/
theorem overrunRaises : Obligations.OverrunRaises :=
  fun _ _ _ _ _ _ _ _ hp hq hc h =>
    ⟨exec_parse_of_overrun hp hq hc h, by simp [State.safe, State.withError, Exn.isOverrun]⟩

/-! ## Which chunks leave the parser in BUFFERING (42_parser.md R181) -/

theorem Parser.settle_buffering_iff (p : Parser) : p.settle.1.explen ≠ 0 ↔ p.settle.2 = .incomplete := by
  rcases p.settle_cases with ⟨hl, e⟩ | ⟨-, e⟩ | ⟨-, e⟩
  · have : p.explen ≠ 0 := fun h => by simp [h] at hl
    simpa [e] using this
  · simp [e]
  · simp [e]

theorem Parser.feed_buffering_iff (p : Parser) (now : Nat) (c : Bytes) :
    (p.feed now c).1.explen ≠ 0 ↔ (p.feed now c).2 = .incomplete := by
  have fresh : ∀ q : Parser, q.stale now = false →
      ((q.feed now c).1.explen ≠ 0 ↔ (q.feed now c).2 = .incomplete) := by
    intro q hs
    rcases Parser.feed_cases hs c with ⟨h0, -, e⟩ | ⟨h0, -, -, e⟩ | ⟨-, -, -, e⟩ | ⟨-, e⟩
    · simp [e, h0]
    · simp [e, h0]
    · rw [e]; exact Parser.settle_buffering_iff _
    · rw [e]; exact Parser.settle_buffering_iff _
  cases hs : p.stale now with
  | false => exact fresh p hs
  | true => rw [Parser.feed_of_stale hs]; exact fresh p.clear (Parser.stale_idle rfl now)

/-- A completed frame ends in a record with finished = 1 or in an exception (42_parser.md R180). -/
theorem discharge_eq_endRecord (f : Bytes) (s : State) : ∃ x, discharge f s = .next (s.endRecord x) := by
  unfold discharge decodePayload
  split
  · split
    · exact ⟨.error _, rfl⟩
    · exact ⟨_, execArm_eq _ _ s⟩
  · exact ⟨.error _, rfl⟩

theorem endRecord_resp_ne_incomplete (s : State) (x : Except Exn DecodedRecord) :
    (s.endRecord x).resp ≠ some Resp.incomplete := by
  cases x <;> simp [State.endRecord, Resp.incomplete]

theorem endParse_incomplete_iff {r : Fed} {s t : State} (h : endParse r s = .next t) :
    t.resp = some Resp.incomplete ↔ r = .incomplete := by
  cases r with
  | incomplete => cases h; simp
  | raised e => cases h; simp
  | complete f =>
    obtain ⟨x, hx⟩ := discharge_eq_endRecord f s
    cases hx.symm.trans h
    simp [endRecord_resp_ne_incomplete]

theorem Parser.pstate_buffering_iff (p : Parser) : p.pstate = .buffering ↔ p.explen ≠ 0 := by
  simp [Parser.pstate]

/-- Settles O56: the parser after the chunk is in BUFFERING when the lengths say incomplete, and that alone is answered by
finished = 0. -/
theorem bufferingExactlyAfterIncomplete : Obligations.BufferingExactlyAfterIncomplete := by
  intro s t k now c _ h
  cases hp : s.parser k with
  | none =>
    simp only [exec, execParse, hp] at h
    cases h
  | some p =>
    rw [exec_parse_bytes hp] at h
    refine ⟨(p.feed now c).1, ?_, ?_⟩
    · rw [endParse_parser h, State.parser_setParser_same]
    · rw [Parser.pstate_buffering_iff, Parser.feed_buffering_iff]
      exact (endParse_incomplete_iff h).symm

/-! ## A completed frame (42_parser.md R180 (c) to (g)) -/

/-- The stored checksum, byte by byte. -/
theorem frameStored_eq {f : Bytes} (h : 2 ≤ f.length) :
    frameStored f = byteAt f (f.length - 1) ++ byteAt f (f.length - 2) := by
  rw [frameStored, le16, show f.length - 2 + 1 = f.length - 1 by omega]

theorem frameStored_toNat {f : Bytes} (h : 2 ≤ f.length) :
    (frameStored f).toNat = (byteAt f (f.length - 2)).toNat + 256 * (byteAt f (f.length - 1)).toNat := by
  rw [frameStored, le16_toNat, show f.length - 2 + 1 = f.length - 1 by omega]

theorem framePayload_length (f : Bytes) : (framePayload f).length = f.length - 6 := by
  rw [framePayload, slice_length (by omega)]
  omega

theorem byteAt_framePayload {f : Bytes} {o : Nat} (h : 4 + o < f.length - 2) :
    byteAt (framePayload f) o = byteAt f (4 + o) :=
  byteAt_slice h

theorem discharge_of_mismatch {f : Bytes} (h : crc16 (frameBody f) ≠ frameStored f) (s : State) :
    discharge f s = .next (s.raise (.crcMismatch (frameStored f) (crc16 (frameBody f)))) := by
  rw [discharge, if_neg h]

theorem discharge_of_match {f : Bytes} (h : crc16 (frameBody f) = frameStored f) (s : State) :
    discharge f s = decodePayload (framePayload f) s := by
  rw [discharge, if_pos h]

/-- A good checksum gives what the payload's arm makes of it, or the length guard's exception (43_decode.md R202, R203). -/
theorem discharge_good {f : Bytes} (h : crc16 (frameBody f) = frameStored f) (s : State) :
    (∀ i : Instr, decode ⟨.rsp, framePayload f, {}⟩ = .ok i →
      ∃ t : State, discharge f s = .next t ∧ exec i s = .next t) ∧
    (f.length < 9 → discharge f s = .next (s.withError (.payloadLength (f.length - 6) 3) 4 1 (f.length - 6) 3)) := by
  rw [discharge_of_match h]
  refine ⟨fun i hi => ?_, fun hl => ?_⟩
  · obtain ⟨t, ht, -⟩ := decodePayload_ended (framePayload f) s
    exact ⟨t, ht, decodePayload_of_decode hi s ▸ ht⟩
  · rw [decodePayload_of_short (by rw [framePayload_length]; omega), framePayload_length]
    rfl

/-- A bad checksum raises CRC_MISMATCH with the stored and the computed value (60_exceptions.md R246). -/
theorem discharge_bad {f : Bytes} (hf : 2 ≤ f.length) {c : Half} (hc : crc16 (frameBody f) = c)
    (h : c ≠ byteAt f (f.length - 1) ++ byteAt f (f.length - 2)) (s : State) :
    discharge f s = .next (s.withError (.crcMismatch (byteAt f (f.length - 1) ++ byteAt f (f.length - 2)) c) 1 4
      ((byteAt f (f.length - 2)).toNat + 256 * (byteAt f (f.length - 1)).toNat) c.toNat) := by
  rw [discharge_of_mismatch (by rw [hc, frameStored_eq hf]; exact h), hc, ← frameStored_eq hf, ← frameStored_toNat hf]
  rfl

/-- Settles O31: FRAME is the validation of the frame. -/
theorem wholeFrameIsValidatedAndDecoded : Obligations.WholeFrameIsValidatedAndDecoded := by
  intro f s c hf hc
  have hf2 : 2 ≤ f.length := by omega
  refine ⟨fun hgood => discharge_good ?_ s, fun hbad => discharge_bad hf2 hc hbad s⟩
  exact hc.trans (hgood.trans (frameStored_eq hf2).symm)

/-- What CRC16 hands over is the checksum. -/
theorem crc16_of_exec {bs : Bytes} {s : State} {v : Half} (h : exec (.crc16 bs) s = .next (s.withResult (.crc v))) :
    crc16 bs = v := by
  rw [exec_crc16] at h
  injection h with h
  exact Output.crc.inj (congrArg State.out h)

/-- Settles O34: a chunk that completes the frame leaves the parser in IDLE, and the rest is FRAME on the frame. -/
theorem parseCompleteFrame : Obligations.ParseCompleteFrame := by
  intro s k now p q c f len crc hp hq hc hlen h4 hcrc
  subst hlen
  rw [exec_parse_of_complete hp hq hc rfl]
  exact (wholeFrameIsValidatedAndDecoded f (s.setParser k p.idled) crc h4 (crc16_of_exec hcrc)).symm

/-! ## A declared length of 0 or 1 (42_parser.md R183) -/

theorem frameBody_eq_map_byteAt (f : Bytes) : frameBody f = (List.range (f.length - 2)).map (byteAt f) := by
  rw [frameBody, slice_eq_map_byteAt (by omega)]
  simp

theorem checksum_ne_of_low {f : Bytes} (h : 2 ≤ f.length) (hlow : byteAt f (f.length - 2) = 0)
    (hcrc : (crc16 (frameBody f)).toNat % 256 ≠ 0) : crc16 (frameBody f) ≠ frameStored f := by
  intro heq
  rw [heq, frameStored_toNat h, hlow] at hcrc
  exact hcrc (by simp)

/-- A frame that declares no more than 1 byte stores a checksum with a low byte of 0, and neither `52 42` nor `52 42 01` has
such a checksum. -/
theorem checksum_ne_of_declared_below_two {f : Bytes} (h0 : byteAt f 0 = 0x52) (h1 : byteAt f 1 = 0x42)
    (h2 : (byteAt f 2).toNat ≤ 1) (h3 : byteAt f 3 = 0) (hlen : f.length = (byteAt f 2).toNat + 4) :
    crc16 (frameBody f) ≠ frameStored f := by
  obtain h2 | h2 : byteAt f 2 = 0 ∨ byteAt f 2 = 1 := by
    rw [← BitVec.toNat_inj, ← BitVec.toNat_inj]
    exact Nat.le_one_iff_eq_zero_or_eq_one.mp h2
  · have hn : f.length - 2 = 2 := by rw [hlen, h2]; rfl
    refine checksum_ne_of_low (by omega) (by rw [hn, h2]) ?_
    rw [frameBody_eq_map_byteAt, hn]
    change (crc16 [byteAt f 0, byteAt f 1]).toNat % 256 ≠ 0
    rw [h0, h1]
    decide +kernel
  · have hn : f.length - 2 = 3 := by rw [hlen, h2]; rfl
    refine checksum_ne_of_low (by omega) (by rw [hn, h3]) ?_
    rw [frameBody_eq_map_byteAt, hn]
    change (crc16 [byteAt f 0, byteAt f 1, byteAt f 2]).toNat % 256 ≠ 0
    rw [h0, h1, h2]
    decide +kernel

/-- Settles O43: the chunk is a whole frame, and its checksum is bad. -/
theorem declaredLengthBelowTwoFailsTheChecksum : Obligations.DeclaredLengthBelowTwoFailsTheChecksum := by
  intro s k now p q c hp hq hidle h0 h1 h2 h3 hlen
  have hacc : Accepts q c c c.length := .inl ⟨hidle, by omega, h0, h1, rfl, by simp [h3, hlen]⟩
  have hne := checksum_ne_of_declared_below_two h0 h1 h2 h3 hlen
  exact ⟨_, _, hne.symm, (exec_parse_of_complete hp hq hacc rfl).trans (discharge_of_mismatch hne _)⟩

/-! ## The record of a completed frame (30_encoding.md R94, 43_decode.md R202, R203) -/

theorem errorBit_iff (b : Byte) : b &&& 0x80 ≠ 0 ↔ 128 ≤ b.toNat := by
  revert b; decide

theorem dispatch_of_error {p : Bytes} (h : 128 ≤ (byteAt p 0).toNat) : dispatch p = .err := by
  rw [dispatch_eq, if_pos ((errorBit_iff _).mpr h)]

/-- Without the error bit the address selects the arm, and then the status 0x01. -/
theorem dispatch_of_success {p : Bytes} (h : (byteAt p 0).toNat < 128) :
    dispatch p =
      if (le16 p 1).toNat = 0x5021 then .d5021
      else if (le16 p 1).toNat = 0x5402 then .d5402
      else if (le16 p 1).toNat = 0x180A then .d180A
      else if byteAt p 0 = 0x01 then .unsup
      else .bare := by
  rw [dispatch_eq, if_neg (by rw [errorBit_iff]; omega)]
  simp only [← BitVec.toNat_inj]
  rfl

theorem armResult_of_ne_unsup {a : DecArm} (h : a ≠ .unsup) (p : Bytes) : ∃ b, armResult a p = .ok (recordOf p b) := by
  cases a with
  | unsup => exact absurd rfl h
  | _ => exact ⟨_, rfl⟩

theorem three_le_need (a : DecArm) : 3 ≤ need a := by cases a <;> decide

theorem decodePayload_of_ok {p : Bytes} {d : DecodedRecord} (hn : need (dispatch p) ≤ p.length)
    (hd : armResult (dispatch p) p = .ok d) (s : State) : decodePayload p s = .next (s.withResp ⟨true, some d⟩) := by
  have := three_le_need (dispatch p)
  rw [decodePayload, if_neg (by omega), ← exec_armInstr, exec_armInstr_of_ok hn hd]

/-- Settles O35: the frame is that of its four-byte payload, which the dispatch gives to DEC.ERR. -/
theorem parseErrorResponseInOneChunk : Obligations.ParseErrorResponseInOneChunk := by
  intro s k now p st a0 a1 e crc hp h0 hst hcrc
  have hframe : [0x52, 0x42, 0x06, 0x00, st, a0, a1, e, BitVec.ofNat 8 crc.toNat, BitVec.ofNat 8 (crc.toNat / 256)] =
      wrap [st, a0, a1, e] := by
    have hlen : u16le (BitVec.ofNat 16 (4 + Config.lenBias)) = [0x06, 0x00] := by decide
    have hhead : frameHead [st, a0, a1, e] = [0x52, 0x42, 0x06, 0x00, st, a0, a1, e] :=
      congrArg (fun l => [Config.headerB0, Config.headerB1] ++ l ++ [st, a0, a1, e]) hlen
    rw [wrap, hhead, crc16_of_exec hcrc, u16le_eq_ofNat]
    rfl
  have hdisp : dispatch [st, a0, a1, e] = .err := dispatch_of_error hst
  rw [hframe, exec_parse_wrap hp h0 now (by simp)]
  exact decodePayload_of_ok (by rw [hdisp]; exact le_refl 4) (by rw [hdisp]; rfl) _

/-- Settles O58: the conditions say that the dispatch selects an arm that has a record, and that its bytes are there. -/
theorem wholeFrameEndsWithItsRecord : Obligations.WholeFrameEndsWithItsRecord := by
  intro f s hf hcrc hcases
  have hlen := framePayload_length f
  have h4 : byteAt (framePayload f) 0 = byteAt f 4 := byteAt_framePayload (by omega)
  have h5 : byteAt (framePayload f) 1 = byteAt f 5 := byteAt_framePayload (by omega)
  have h6 : byteAt (framePayload f) 2 = byteAt f 6 := byteAt_framePayload (by omega)
  have haddr := le16_toNat (framePayload f) 1
  rw [h5, h6] at haddr
  have harm : need (dispatch (framePayload f)) ≤ (framePayload f).length ∧ dispatch (framePayload f) ≠ .unsup := by
    have selected : ∀ a, dispatch (framePayload f) = a → need a + 6 ≤ f.length → a ≠ .unsup →
        need (dispatch (framePayload f)) ≤ (framePayload f).length ∧ dispatch (framePayload f) ≠ .unsup := by
      rintro a rfl hn ha
      exact ⟨by omega, ha⟩
    have byAddress := fun h => dispatch_of_success (p := framePayload f) h
    rw [h4, haddr] at byAddress
    rcases hcases with ⟨h, hl⟩ | ⟨h, ha, hl⟩ | ⟨h, ha, hl⟩ | ⟨h, ha, hl⟩ | ⟨h, ha, hs⟩
    · exact selected .err (dispatch_of_error (h4 ▸ h)) hl (by decide)
    · exact selected .d5021 (by rw [byAddress h, ha]; rfl) hl (by decide)
    · exact selected .d5402 (by rw [byAddress h, ha]; rfl) hl (by decide)
    · exact selected .d180A (by rw [byAddress h, ha]; rfl) hl (by decide)
    · simp only [List.mem_cons, List.not_mem_nil, or_false, not_or] at ha
      exact selected .bare (by simp only [byAddress h, ha, hs, if_false]) hf (by decide)
  obtain ⟨hneed, hunsup⟩ := harm
  obtain ⟨b, hb⟩ := armResult_of_ne_unsup hunsup (framePayload f)
  refine ⟨recordOf (framePayload f) b, ?_, h4, congrArg statusText h4, ?_⟩
  · exact (discharge_of_match (hcrc.trans (frameStored_eq (by omega)).symm) s).trans (decodePayload_of_ok hneed hb s)
  · rw [recordOf, le16, h5, h6]

/-! ## A frame in several chunks (42_parser.md R185) -/

/-- A chunk at `b` does not come after the timeout that began at `a`. -/
def Parser.inTime (p : Parser) (a b : Nat) : Prop := (b : Int) - (a : Int) < (p.ttl : Int)

theorem AfterStaleness.of_inTime {p : Parser} {f : Bytes} {len t now : Nat} (h : p.ttlEn = true → p.inTime t now) :
    AfterStaleness (p.holding f len t) now (p.holding f len t) := by
  refine .inr ⟨fun ⟨_, hen, hover⟩ => ?_, rfl⟩
  exact absurd hover (not_le.mpr (h hen))

/-- A parser in BUFFERING takes any chunk as a continuation (42_parser.md R176). -/
theorem accepts_holding {p : Parser} {f : Bytes} {len : Nat} (h0 : 0 < len) (hlen : len < 2 ^ 17) (t : Nat) (c : Bytes) :
    Accepts (p.holding f len t) c (f ++ c) len := by
  have htoNat : (BitVec.ofNat 17 len).toNat = len := by rw [BitVec.toNat_ofNat, Nat.mod_eq_of_lt hlen]
  refine .inr ⟨fun h => ?_, rfl, htoNat.symm⟩
  have : (BitVec.ofNat 17 len).toNat = 0 := congrArg BitVec.toNat h
  omega

theorem State.midFrame_parser (s : State) (k : Nat) (p : Parser) (f : Bytes) (len t : Nat) :
    (s.midFrame k p f len t).parser k = some (p.holding f len t) :=
  State.parser_setParser_same s k _

/-- A later chunk overwrites all that an incomplete one has written. -/
theorem State.midFrame_midFrame (s : State) (k : Nat) (p : Parser) (f g : Bytes) (len t u : Nat) :
    (s.midFrame k p f len t).midFrame k (p.holding f len t) g len u = s.midFrame k p g len u := by
  simp [State.midFrame, State.respond, State.finish, State.setParser, Parser.holding]

theorem feedAll_cons_of_next {k now : Nat} {c : Bytes} {rest : List (Nat × Bytes)} {s t : State}
    (h : exec (.parse k now (.bytes c)) s = .next t) : feedAll k ((now, c) :: rest) s = feedAll k rest t := by
  simp only [feedAll, h]

/-- Chunks in time that do not complete the frame gather in BUF. -/
theorem feedAll_midFrame {s : State} {k : Nat} {p : Parser} {len : Nat} {rest : List Nat} (hlen : len < 2 ^ 17)
    (chunks : List (Nat × Bytes)) (f : Bytes) (t : Nat)
    (hchain : p.ttlEn = true → ((t :: chunks.map Prod.fst) ++ rest).IsChain p.inTime)
    (hf : (f ++ (chunks.map Prod.snd).flatten).length < len) :
    ∃ u : Nat, feedAll k chunks (s.midFrame k p f len t) =
        .next (s.midFrame k p (f ++ (chunks.map Prod.snd).flatten) len u) ∧
      (p.ttlEn = true → (u :: rest).IsChain p.inTime) := by
  induction chunks generalizing f t with
  | nil => exact ⟨t, by simp [feedAll], hchain⟩
  | cons tc chunks ih =>
    obtain ⟨now, c⟩ := tc
    simp only [List.map_cons, List.flatten_cons, ← List.append_assoc] at hf ⊢
    have hnow : p.ttlEn = true → p.inTime t now := fun h => (List.isChain_cons_cons.mp (hchain h)).1
    have hstep := exec_parse_of_incomplete (s.midFrame_parser k p f len t) (.of_inTime hnow)
      (accepts_holding (by omega) hlen t c) (by rw [List.length_append] at hf; omega)
    rw [feedAll_cons_of_next hstep, State.midFrame_midFrame]
    exact ih (f ++ c) now (fun h => (List.isChain_cons_cons.mp (hchain h)).2) hf

/-- The chunk that completes a frame in BUFFERING ends as the frame does that stands alone. -/
theorem exec_parse_midFrame_complete {s : State} {k : Nat} {p : Parser} {f c : Bytes} {len t now : Nat} (h0 : 0 < len)
    (hlen : len < 2 ^ 17) (ht : p.ttlEn = true → p.inTime t now) (hf : (f ++ c).length = len) :
    exec (.parse k now (.bytes c)) (s.midFrame k p f len t) = discharge (f ++ c) (s.setParser k p.idled) := by
  rw [exec_parse_of_complete (s.midFrame_parser k p f len t) (.of_inTime ht) (accepts_holding h0 hlen t c) hf]
  exact endParse_congr (.complete (f ++ c)) rfl (putParser_putParser s.parsers k _ _) rfl rfl rfl

/-- More bytes behind a frame start are a frame start of the same declared length. -/
theorem Accepts.append_start {p : Parser} {c0 : Bytes} {len : Nat} (h : Accepts p c0 c0 len) (hidle : p.explen = 0)
    (rest : Bytes) : Accepts p (c0 ++ rest) (c0 ++ rest) len := by
  rcases h with ⟨-, h4, hb0, hb1, -, hlen⟩ | ⟨hne, -⟩
  · have hb : ∀ o < 4, byteAt (c0 ++ rest) o = byteAt c0 o := fun o ho => byteAt_append_left (by omega)
    exact .inl ⟨hidle, by rw [List.length_append]; omega, (hb 0 (by decide)).trans hb0, (hb 1 (by decide)).trans hb1,
      rfl, by rw [hb 2 (by decide), hb 3 (by decide), hlen]⟩
  · exact absurd hidle hne

/-- EXPLEN holds every declared total (10_state.md R23). -/
theorem declared_lt (c : Bytes) : (byteAt c 2).toNat + 256 * (byteAt c 3).toNat + 4 < 2 ^ 17 := by
  have h2 := (byteAt c 2).isLt
  have h3 := (byteAt c 3).isLt
  omega

/-- Settles O45: the chunks before the last gather in BUF, and the last one and the whole frame at once hand the same bytes
to the validation, with the parser in IDLE. -/
theorem fragmentationInvariance : Obligations.FragmentationInvariance := by
  intro s k t0 tn p c0 mid cn hp hidle h4 hcn hb0 hb1 hwhole hchain
  have hstart : Accepts p c0 c0 _ := .inl ⟨hidle, h4, hb0, hb1, rfl, rfl⟩
  have hall := hstart.append_start hidle ((mid.map Prod.snd).flatten ++ cn)
  rw [← List.append_assoc] at hall
  have hlt := declared_lt c0
  generalize (byteAt c0 2).toNat + 256 * (byteAt c0 3).toNat + 4 = len at *
  replace hchain : p.ttlEn = true → ((t0 :: mid.map Prod.fst) ++ [tn]).IsChain p.inTime := hchain
  have hlast : 0 < cn.length := List.length_pos_iff.mpr hcn
  have gathered : ∀ a b, mid = a ++ b →
      ∃ u, feedAll k ((t0, c0) :: a) s = .next (s.midFrame k p (c0 ++ (a.map Prod.snd).flatten) len u) ∧
        (p.ttlEn = true → (u :: (b.map Prod.fst ++ [tn])).IsChain p.inTime) := by
    rintro a b rfl
    have hshort : (c0 ++ (a.map Prod.snd).flatten).length < len := by
      rw [← hwhole, List.map_append, List.flatten_append]
      simp only [List.length_append]
      omega
    rw [feedAll_cons_of_next (exec_parse_of_incomplete hp (.of_idle hidle t0) hstart
      (by rw [List.length_append] at hshort; omega))]
    exact feedAll_midFrame hlt a c0 t0 (fun h => by simpa using hchain h) hshort
  refine ⟨fun n => ?_, ?_⟩
  · obtain ⟨u, hu, -⟩ := gathered (mid.take n) (mid.drop n) (List.take_append_drop n mid).symm
    exact ⟨_, hu, rfl⟩
  · obtain ⟨u, hu, htime⟩ := gathered mid [] (List.append_nil mid).symm
    refine ⟨_, hu, ?_⟩
    have hpos : 0 < len := by rw [← hwhole, List.length_append]; omega
    rw [exec_parse_midFrame_complete hpos hlt (fun h => List.isChain_pair.mp (htime h)) hwhole,
      exec_parse_of_complete hp (.of_idle hidle tn) hall hwhole]

end Sys2Proof.Machine

/-! The decoder (43_decode.md): the order of its dispatch, what each arm makes of a long and of a short payload, and that the
host reaches it through PARSE alone. -/

namespace Sys2Proof.Machine

/-! ## The dispatch (43_decode.md R211, 30_encoding.md R94) -/

/-- A payload of at least 3 bytes is the instruction of the arm the dispatch selects (43_decode.md R202). -/
theorem decode_rsp_of_le {p : Bytes} (h : 3 ≤ p.length) : decode ⟨.rsp, p, {}⟩ = .ok (armInstr (dispatch p) p) :=
  decodeRsp_of_selects (by simp [selects, h])

/-- Settles O7: the error bit decides first, then the address and after it the status, by what the dispatch selects. -/
theorem responseDispatchOrder : Obligations.ResponseDispatchOrder := by
  intro p h
  have bySuccess := @dispatch_of_success p
  rw [le16_toNat] at bySuccess
  rw [decode_rsp_of_le h]
  refine ⟨fun he => ?_, fun hs ha => ?_, fun hs ha => ?_, fun hs ha => ?_, fun hs ha => ?_⟩
  · rw [dispatch_of_error he]; rfl
  · rw [bySuccess hs, ha]; rfl
  · rw [bySuccess hs, ha]; rfl
  · rw [bySuccess hs, ha]; rfl
  · simp only [List.mem_cons, List.not_mem_nil, or_false, not_or] at ha
    have hstatus : byteAt p 0 = 0x01 ↔ (byteAt p 0).toNat = 1 := BitVec.toNat_inj.symm
    simp only [bySuccess hs, ha, if_false, hstatus]
    split <;> rfl

/-! ## The records (43_decode.md R204 to R206, R209) -/

/-- The 16-bit field at an offset, read as two's complement (30_encoding.md R97). -/
theorem le16_toInt (p : Bytes) (o : Nat) : (le16 p o).toInt = signedAt16 p o := by
  rw [BitVec.toInt_eq_toNat_cond, le16_toNat, signedAt16]
  split <;> split <;> omega

/-- The 32-bit field at an offset, read as two's complement (30_encoding.md R97). -/
theorem le32_toInt (p : Bytes) (o : Nat) : (le32 p o).toInt = signedAt32 p o := by
  rw [BitVec.toInt_eq_toNat_cond, le32_toNat, signedAt32]
  split <;> split <;> omega

/-- Settles O23: the record is the arm's, and each number in it is the field at its offset. -/
theorem sensorRecordFields : Obligations.SensorRecordFields :=
  fun p s h => ⟨sensorData p, _, exec_armInstr_of_ok (a := .d5021) h rfl s, rfl, rfl, rfl, le16_toInt p 4, le16_toInt p 6,
    le16_toInt p 8, le32_toInt p 10, le16_toInt p 14, le16_toInt p 16, le16_toInt p 18, le16_toInt p 20, le16_toInt p 22,
    rfl, rfl, le16_toInt p 25, le16_toInt p 29⟩

/-- Settles O22: the arm has its bytes and ends with its record. -/
theorem errorResponseRecord : Obligations.ErrorResponseRecord :=
  fun _ s h => ⟨_, exec_armInstr_of_ok (a := .err) h rfl s, rfl, rfl, rfl⟩

/-- Settles O25: the arm has its bytes and ends with its record. -/
theorem orientationRecord : Obligations.OrientationRecord :=
  fun _ s h => ⟨_, exec_armInstr_of_ok (a := .d5402) h rfl s, rfl, rfl⟩

/-- Settles O29: the arm has its bytes and ends with its record. -/
theorem bareRecord : Obligations.BareRecord :=
  fun _ s h => ⟨_, exec_armInstr_of_ok (a := .bare) h rfl s, rfl, rfl, rfl⟩

/-! ## The exceptions (43_decode.md R203, R208) -/

/-- An arm that has its bytes ends with its result, a record or an exception. -/
theorem exec_armInstr_of_le {a : DecArm} {p : Bytes} (h : need a ≤ p.length) (s : State) :
    exec (armInstr a p) s = .next (s.endRecord (armResult a p)) := by
  rw [exec_armInstr, execArm_eq, guarded_of_le h]

/-- An arm without its bytes raises with the length and the need, whatever it would have read (43_decode.md R203). -/
theorem exec_armInstr_of_short {a : DecArm} {p : Bytes} (h : p.length < need a) (s : State) :
    exec (armInstr a p) s = .next (s.withError (.payloadLength p.length (need a)) 4 1 p.length (need a)) := by
  rw [exec_armInstr, execArm_eq, guarded_of_lt h]
  rfl

/-- Settles O28: the arm's result is the exception, and the address it carries is the two bytes after the status. -/
theorem unsupportedAddressRaises : Obligations.UnsupportedAddressRaises := by
  intro p s h hst
  have hraise : exec (.decUnsup p) s = .next (s.raise (.unsupportedAddress (le16 p 1) (byteAt p 0))) :=
    exec_armInstr_of_le (a := .unsup) h s
  rw [hraise, hst, ← le16_toNat p 1]
  rfl

/-- Settles O30: the guard of each arm stands before its reads. -/
theorem shortPayloadsRaise : Obligations.ShortPayloadsRaise :=
  fun _ s => ⟨fun h => exec_armInstr_of_short (a := .err) h s, fun h => exec_armInstr_of_short (a := .d5021) h s,
    fun h => exec_armInstr_of_short (a := .d5402) h s, fun h => exec_armInstr_of_short (a := .d180A) h s,
    fun h => exec_armInstr_of_short (a := .unsup) h s, fun h => exec_armInstr_of_short (a := .bare) h s⟩

/-! ## The host and the decoder (43_decode.md R200) -/

/-- The word a step takes is gone from the unit's input, wherever it came from. -/
theorem State.unitWord_of_fetch {s u : State} {x : Presented} (h : s.fetch = some (x, u)) : u.unitWord = none := by
  cases hu : s.unitWord with
  | some y => rw [State.fetch_of_unitWord hu] at h; cases h; rfl
  | none =>
    cases hp : s.pending with
    | nil => rw [State.fetch_of_nothing hu hp] at h; cases h
    | cons o rest => rw [State.fetch_of_pending hu hp] at h; cases h; exact hu

/-- No operation puts a word at a unit's input. -/
theorem exec_unitWord {i : Instr} {s t : State} (h : exec i s = .next t) : t.unitWord = s.unitWord := by
  cases execCase_of_next h with
  | plain _ he => exact he.unitWord
  | initTtl k ttl => rfl
  | initNoTtl k ttl => rfl
  | inputType _ _ => rfl
  | parse _ _ he => exact he.unitWord

theorem step_unitWord {s t : State} (hs : s.unitWord = none) (h : step s = .next t) : t.unitWord = none := by
  rcases step_cases h with ⟨-, rfl⟩ | ⟨x, u, i, hf, -, hx⟩ | ⟨x, u, e, hf, -, hx⟩
  · exact hs
  · exact (exec_unitWord hx).trans (State.unitWord_of_fetch hf)
  · exact (rejectWord_ended hx).unitWord.trans (State.unitWord_of_fetch hf)

/-- What the host issues is run as the operation of its code and lines (30_encoding.md R80, R81). -/
theorem step_of_pending {s : State} {o : HostOp} {rest : List HostOp} (hu : s.unitWord = none)
    (hp : s.pending = o :: rest) : step s = exec (decodeHostop o.op o.lines) { s with pending := rest } :=
  step_of_decode_ok (State.fetch_of_pending hu hp) (decode_hostOp_word o)

/-- RESP of `t` holds no record but one that `s` already had (10_state.md R38). -/
def State.NoNewRecord (s t : State) : Prop := t.resp = s.resp ∨ t.resp = none ∨ t.resp = some Resp.incomplete

theorem State.noNewRecord_finish (s : State) (o : Output) : s.NoNewRecord (s.finish o) := .inl rfl

theorem State.noNewRecord_raise (s : State) (e : Exn) : s.NoNewRecord (s.raise e) := .inr (.inl rfl)

theorem State.noNewRecord_endWith (s : State) (x : Except Exn Output) : s.NoNewRecord (s.endWith x) := by
  cases x with
  | ok o => exact s.noNewRecord_finish o
  | error e => exact s.noNewRecord_raise e

theorem exec_init_noNewRecord {k ttl : Nat} {e : Bool} {s t : State} (h : exec (.init k e ttl) s = .next t) :
    s.NoNewRecord t := by
  cases e <;> cases h <;> exact .inr (.inr rfl)

theorem exec_bldWrled_noNewRecord {r : RuleOperand} {c : ColorOperand} {s t : State}
    (h : exec (.bldWrled r c) s = .next t) : s.NoNewRecord t := by
  cases hc : resolveColor c with
  | none => rw [exec_bldWrled_of_none hc] at h; cases h
  | some n => rw [exec_bldWrled_of_some hc] at h; cases h; exact s.noNewRecord_endWith _

/-- Of the sixteen operations PARSE alone can leave a record: INIT leaves the incomplete marker, the checksum and the Builder
leave RESP alone or raise, and a reserved code raises. -/
theorem exec_decodeHostop_noNewRecord {op : BitVec 4} {l : HostLines} {s t : State} (hop : op ≠ 7)
    (h : exec (decodeHostop op l) s = .next t) : s.NoNewRecord t := by
  rcases opCode_cases op with rfl | rfl | rfl | rfl | rfl | rfl | rfl | rfl | hres
  · exact exec_init_noNewRecord h
  · cases h; exact s.noNewRecord_finish _
  · cases h; exact s.noNewRecord_endWith _
  · cases h; exact s.noNewRecord_endWith _
  · cases h; exact s.noNewRecord_endWith _
  · cases h; exact s.noNewRecord_endWith _
  · exact exec_bldWrled_noNewRecord h
  · exact absurd rfl hop
  · rw [decodeHostop_reserved hres] at h; cases h; exact s.noNewRecord_raise _

/-- Settles O59: a step takes the unit word away and no operation puts one back, and of the host's operations only PARSE
reaches a decode arm. -/
theorem hostReachesTheDecoderThroughParseAlone : Obligations.HostReachesTheDecoderThroughParseAlone := by
  refine ⟨rfl, fun _ _ => step_unitWord, fun _ _ _ => step_of_pending, fun s t o rest hu hp hop h => ?_⟩
  rw [step_of_pending hu hp] at h
  exact exec_decodeHostop_noNewRecord (s := { s with pending := rest }) hop h

end Sys2Proof.Machine

/-! The exceptions (60_exceptions.md): a frame start that raises, what is no byte sequence, the refusals of the Builder and of
the reserved codes, and what an operation that raises leaves behind. -/

namespace Sys2Proof.Machine

/-! ## A frame start that raises (60_exceptions.md R244, R245, 42_parser.md R175) -/

theorem Parser.start_of_short {p : Parser} {c : Bytes} (h : c.length < 4) : p.start c = .error (.shortStart c.length) :=
  if_pos h

theorem Parser.start_of_mismatch {p : Parser} {c : Bytes} (h4 : 4 ≤ c.length)
    (h : ¬ (byteAt c 0 = 0x52 ∧ byteAt c 1 = 0x42)) : p.start c = .error (.headerMismatch (le16 c 0)) := by
  have hbad : headerGood c = false := Bool.eq_false_iff.mpr (mt (headerGood_iff c).mp h)
  rw [Parser.start, if_neg (by omega), if_pos hbad]

/-- An exception of the frame start leaves the parser as the staleness check left it: no time stamp is written. -/
theorem exec_parse_of_start_error {s : State} {k now : Nat} {p q : Parser} {c : Bytes} {e : Exn} (hp : s.parser k = some p)
    (hq : AfterStaleness p now q) (h0 : q.explen = 0) (he : q.start c = .error e) :
    exec (.parse k now (.bytes c)) s = .next ((s.setParser k q).raise e) := by
  obtain ⟨hs, hfeed, -⟩ := afterStaleness hq
  have hraised : q.feed now c = (q, .raised e) := by
    rw [Parser.feed, Parser.expire_of_fresh hs, Parser.accept, if_pos h0, he]
  rw [exec_parse_bytes hp, hfeed, hraised]
  rfl

/-- Settles O36: the frame start reads the header, and its two bytes little-endian are the first diagnostic. -/
theorem headerMismatchRaises : Obligations.HeaderMismatchRaises := by
  intro s k now p q c hp hq h0 h4 hbad
  rw [exec_parse_of_start_error hp hq h0 (Parser.start_of_mismatch h4 hbad), ← le16_toNat]
  rfl

/-- Settles O37: the frame start counts the bytes before it reads any. -/
theorem shortStartRaises : Obligations.ShortStartRaises :=
  fun _ _ _ _ _ _ hp hq h0 hlen => exec_parse_of_start_error hp hq h0 (Parser.start_of_short hlen)

/-! ## What is no byte sequence (60_exceptions.md R243, 42_parser.md R172) -/

theorem exec_parse_of_norm_none {s : State} {k : Nat} {p : Parser} {ch : ChunkOperand} (hp : s.parser k = some p)
    (hn : Machine.norm ch = none) (now : Nat) : exec (.parse k now ch) s = .next (s.raise .inputType) := by
  simp only [exec, execParse, hp, hn]

theorem exec_parse_of_norm_some {s : State} {k : Nat} {p : Parser} {ch : ChunkOperand} {c : Bytes} (hp : s.parser k = some p)
    (hn : Machine.norm ch = some c) (now : Nat) :
    exec (.parse k now ch) s = endParse (p.feed now c).2 (s.setParser k (p.feed now c).1) :=
  (exec_parse_congr (b := .bytes c) hn).trans (exec_parse_bytes hp now c)

/-- One element that is no byte value spoils the array, wherever it stands (the spec's decision D25). -/
theorem arrayBytes_of_bad_element {es : List ArrayElem}
    (h : ∃ e ∈ es, e = ArrayElem.notInteger ∨ ∃ v, e = ArrayElem.int v ∧ (v < 0 ∨ 255 < v)) : arrayBytes es = none := by
  obtain ⟨e, he, hbad⟩ := h
  induction es with
  | nil => cases he
  | cons d ds ih =>
    rcases List.mem_cons.mp he with rfl | hmem
    · rcases hbad with rfl | ⟨v, rfl, hv⟩
      · rfl
      · rw [arrayBytes, if_neg (by omega)]
    · cases d with
      | notInteger => rfl
      | int v => simp [arrayBytes, ih hmem]

theorem norm_of_notBytes {ch : ChunkOperand} (h : NotBytes ch) : Machine.norm ch = none := by
  rcases h with rfl | ⟨es, rfl | rfl, hbad⟩
  · rfl
  · exact arrayBytes_of_bad_element hbad
  · exact arrayBytes_of_bad_element hbad

/-- Settles O39: normalisation comes before the parser is looked at. -/
theorem inputTypeRaises : Obligations.InputTypeRaises :=
  fun _ _ now _ _ hp hbad => exec_parse_of_norm_none hp (norm_of_notBytes hbad) now

/-! ## The Builder and the reserved codes (60_exceptions.md R251, R252) -/

/-- Settles O11: the length test stands before the frame is made. -/
theorem buildRequestRefusesLongPayloads : Obligations.BuildRequestRefusesLongPayloads := by
  intro payload s h
  rw [exec_bldReq, buildRequest_of_lt h]
  rfl

/-- Settles O57: a reserved operation does nothing but raise. -/
theorem reservedCodesRaise : Obligations.ReservedCodesRaise := fun _ _ _ => rfl

/-! ## What a PARSE answers (60_exceptions.md R262, 10_state.md R35, R40) -/

/-- Two states hold the same RESP, exception outputs and result. -/
abbrev State.SameAnswer (s t : State) : Prop :=
  s.resp = t.resp ∧ s.err = t.err ∧ s.errcause = t.errcause ∧ s.errinfo0 = t.errinfo0 ∧ s.errinfo1 = t.errinfo1 ∧ s.out = t.out

theorem State.respond_sameAnswer (s t : State) (r : Resp) : (s.respond r).SameAnswer (t.respond r) :=
  ⟨rfl, rfl, rfl, rfl, rfl, rfl⟩

theorem State.raise_sameAnswer (s t : State) (e : Exn) : (s.raise e).SameAnswer (t.raise e) :=
  ⟨rfl, rfl, rfl, rfl, rfl, rfl⟩

theorem State.endRecord_sameAnswer (s t : State) (x : Except Exn DecodedRecord) : (s.endRecord x).SameAnswer (t.endRecord x) := by
  cases x with
  | ok d => exact s.respond_sameAnswer t _
  | error e => exact s.raise_sameAnswer t e

/-- The record or the exception of a completed frame is the frame's alone: it is the same on every state. -/
theorem discharge_eq_endRecord_on_every_state (f : Bytes) : ∃ x, ∀ s, discharge f s = .next (s.endRecord x) := by
  by_cases hcrc : crc16 (frameBody f) = frameStored f
  · by_cases hlen : (framePayload f).length < 3
    · exact ⟨.error _, fun s => by rw [discharge_of_match hcrc, decodePayload_of_short hlen]; rfl⟩
    · exact ⟨_, fun s => by rw [discharge_of_match hcrc, decodePayload, if_neg hlen, execArm_eq]⟩
  · exact ⟨.error _, discharge_of_mismatch hcrc⟩

theorem endParse_sameAnswer {r : Fed} {s₁ s₂ t₁ t₂ : State} (h₁ : endParse r s₁ = .next t₁) (h₂ : endParse r s₂ = .next t₂) :
    t₁.SameAnswer t₂ := by
  cases r with
  | incomplete => cases h₁; cases h₂; exact s₁.respond_sameAnswer s₂ _
  | raised e => cases h₁; cases h₂; exact s₁.raise_sameAnswer s₂ e
  | complete f =>
    obtain ⟨x, hx⟩ := discharge_eq_endRecord_on_every_state f
    cases (hx s₁).symm.trans h₁
    cases (hx s₂).symm.trans h₂
    exact s₁.endRecord_sameAnswer s₂ x

/-- Settles O52: the parser's new registers and the end of the PARSE come from its parser, the time and the chunk. -/
theorem parseSeesOnlyItsOwnParser : Obligations.ParseSeesOnlyItsOwnParser := by
  intro s₁ s₂ t₁ t₂ k now ch hs h₁ h₂
  cases execCase_of_next h₁ with
  | plain hl _ => cases hl
  | inputType hp hn =>
    rw [exec_parse_of_norm_none (hs ▸ hp) hn] at h₂
    cases h₂
    exact ⟨hs, s₁.raise_sameAnswer s₂ _⟩
  | parse hp hn _ =>
    rw [exec_parse_of_norm_some hp hn] at h₁
    rw [exec_parse_of_norm_some (hs ▸ hp) hn] at h₂
    refine ⟨?_, endParse_sameAnswer h₁ h₂⟩
    rw [endParse_parser h₁, endParse_parser h₂, State.parser_setParser_same, State.parser_setParser_same]

/-! ## What an operation that raises leaves behind (60_exceptions.md R254) -/

/-- An end with ERR set has neither RESP nor a result. -/
theorem Ended.no_answer_of_err {s t : State} (h : Ended s t) (herr : t.err ≠ 0) : t.resp = none ∧ t.out = .none := by
  rcases h.normal_or_raised with ⟨h0, -⟩ | ⟨e, rfl⟩
  · exact absurd h0 herr
  · exact ⟨rfl, rfl⟩

/-- A PARSE that raises leaves its parser in IDLE and empty: a parser in BUFFERING was answered by the incomplete marker. -/
theorem feed_idle_of_err {p : Parser} {now : Nat} {c : Bytes} {s t : State} (hp : p.Inv)
    (h : endParse (p.feed now c).2 s = .next t) (herr : t.err ≠ 0) :
    (p.feed now c).1.explen = 0 ∧ (p.feed now c).1.buf = [] ∧ (p.feed now c).1.lastts = 0 := by
  have hidle : (p.feed now c).1.explen = 0 := by
    by_contra hne
    rw [(Parser.feed_buffering_iff p now c).mp hne] at h
    cases h
    exact herr rfl
  obtain ⟨hempty, -⟩ := feed_inv hp now c
  exact ⟨hidle, hempty hidle⟩

/-- Settles O53: an operation on no link and a refused chunk write no parser, INIT does not raise, and PARSE raises with its
parser in IDLE, which the invariant makes empty. -/
theorem exceptionsLeaveParsersUntouchedOrIdle : Obligations.ExceptionsLeaveParsersUntouchedOrIdle := by
  intro i s t hs h herr
  cases execCase_of_next h with
  | plain _ he =>
    obtain ⟨hresp, hout⟩ := he.no_answer_of_err herr
    exact ⟨hresp, hout, .inl he.parsers⟩
  | initTtl k ttl => exact absurd rfl herr
  | initNoTtl k ttl => exact absurd rfl herr
  | inputType _ _ => exact ⟨rfl, rfl, .inl rfl⟩
  | @parse k now c p b _ hp hn he =>
    obtain ⟨hresp, hout⟩ := he.no_answer_of_err herr
    rw [exec_parse_of_norm_some hp hn] at h
    refine ⟨hresp, hout, .inr ⟨k, (p.feed now b).1, rfl, ?_, feed_idle_of_err (State.parser_inv hs hp) h herr⟩⟩
    rw [he.parser, State.parser_setParser_same]

end Sys2Proof.Machine

/-! Reset and hazards (70_reset_and_hazards.md): the operations that have no next state, and that no other lacks one. -/

namespace Sys2Proof.Machine

/-- Settles O41: the parser is looked up before anything else, and the chunk is not read. -/
theorem parseNeedsAConstructedParser : Obligations.ParseNeedsAConstructedParser := by
  intro s k now ch hp
  simp only [exec, execParse, hp]

/-- Settles O54, over everything an operation can do: the two cases without a next state are the exceptions named. -/
theorem everyOtherOperationCompletes : Obligations.EveryOtherOperationCompletes := by
  intro i s
  have h := exec_cases i s
  generalize exec i s = r at h
  cases h with
  | color hc => exact .inr (.inr ⟨_, _, rfl, hc⟩)
  | unconstructed hp => exact .inr (.inl ⟨_, _, _, rfl, hp⟩)
  | plain _ _ => exact .inl ⟨_, rfl⟩
  | initTtl _ _ => exact .inl ⟨_, rfl⟩
  | initNoTtl _ _ => exact .inl ⟨_, rfl⟩
  | inputType _ _ => exact .inl ⟨_, rfl⟩
  | parse _ _ _ => exact .inl ⟨_, rfl⟩

end Sys2Proof.Machine
